-- ==== Sys2Proof/Word.lean ====
section
/-! DEFINITION. The word types of the module (spec 00_scope R4: little-endian, bit 0 least significant) and the plain data
that commands carry: bytes with their poison, and plot coordinates. -/

namespace Sys2Proof

abbrev Byte := BitVec 8
abbrev W16 := BitVec 16
abbrev W32 := BitVec 32
abbrev W64 := BitVec 64
abbrev W128 := BitVec 128
abbrev W512 := BitVec 512

/-- One byte of data together with the poison of the 64-bit word it came from (09 R309, R314). -/
abbrev PByte := Byte × Bool

/-- Data as it moves through operations, queues, rings and networks: bytes, first byte first, each with its poison. -/
abbrev Data := List PByte

/-- A logical plot: column x (0-1199) and row y (0-767) (01 R19). -/
structure XY where
  x : Nat
  y : Nat
  deriving DecidableEq, Repr

/-- A signal: an addition to one beacon of the receiving plot (07 R249). -/
structure Signal where
  beacon : Nat
  add : Nat
  deriving DecidableEq, Repr

/-- The Chartroom processors, in the order of `DEV_STATUS.UP` (15 R493). -/
inductive Proc where
  | compass | alidade | theodolite | isobar
  deriving DecidableEq, Repr

end Sys2Proof
end

