-- ==== Sys2Proof/Syntax.lean ====
section
/-! DEFINITION. The commands of the block: one constructor for each of the 237 rows of spec/opcode_table.json. The table
gives no operands; each constructor carries what its rule says the event brings with it (log entries 8 and 9). -/

namespace Sys2Proof

/-- Where a register write goes: BAR0, PCIe configuration space (15 R489), or the control space of a plot (by physical index), field, controller, port, or the
transit switch (02 R88, 08 R295, 09 R340, 11 R390, R402, 15 R490). -/
inductive RegTarget where
  | bar0 (off : Nat)
  | config (off : Nat)
  | plot (phys off : Nat)
  | field (f off : Nat)
  | emc (c off : Nat)
  | port (p off : Nat)
  | switch (off : Nat)
  deriving DecidableEq, Repr

/-- A disturbance of stored bits: the 64-bit word at a byte address (a multiple of 8), the data bits and the check bits that
flipped (09 R311; log entry 9). -/
structure Upset where
  addr : Nat
  data : W64
  check : Byte
  deriving DecidableEq, Repr

/-- What the S0 ROM read of one flash device: whether the bytes could be read back intact (12 R415; log entry 9). -/
structure FlashReading where
  readable : Bool
  deriving DecidableEq, Repr

/-- What the stitch test found at one join: failing wires of each 32-wire group (12 R419). -/
structure JoinResult where
  join : Nat
  failing : List Nat
  deriving DecidableEq, Repr

/-- What a plot's own tests and its adjacent plots found (12 R421, R422): physical index, own tests failed or overran,
adjacent plots (N, E, S, W) it found failing, router connections that failed, test signature. -/
structure PlotTest where
  phys : Nat
  selfFail : Bool
  nbFail : BitVec 4
  links : W16
  sig : W32
  deriving DecidableEq, Repr

/-- What training found of one stack (12 R425, 09 R334). -/
structure StackTraining where
  stack : Nat
  passed : Bool
  repairs : Nat
  deriving DecidableEq, Repr

/-- What LANE_MAP measured at one port (11 R391, R392): lanes that pass in both directions, lane reversal, inverted lanes,
round trip in ns. -/
structure LaneMap where
  passing : W16
  reversed : Bool
  polarity : W16
  rttNs : Nat
  deriving DecidableEq, Repr

/-- What the other end announces in IDENTIFY (11 R391, R393). -/
structure Peer where
  gateway : Bool
  device : Nat
  written : Bool
  torus : W32
  role : Nat
  deriving DecidableEq, Repr

/-- A condition of 11 R394 that takes an ACTIVE port to RETRAIN. -/
inductive RetrainWhy where
  | laneLoss | fecRate | replayRate
  deriving DecidableEq, Repr

/-- A controller or a port, whose attachment set Theodolite switches (13 R454). -/
inductive Attach where
  | emc (c : Nat)
  | port (p : Nat)
  deriving DecidableEq, Repr

/-- A segment of the clock, memory or link domain (13 R456). -/
inductive Segment where
  | clock (f : Nat)
  | memory (c : Nat)
  | link (p : Nat)
  deriving DecidableEq, Repr

/-- A branch of the Chartroom die's standby supply (13 R456). -/
inductive Branch where
  | processor (p : Proc)
  | hostInterface
  | sideband
  deriving DecidableEq, Repr

/-- A region the debug port reaches: a processor's partition or the mailbox (16 R525). -/
inductive DebugRegion where
  | partition (p : Proc)
  | mailbox
  deriving DecidableEq, Repr

/-- A squall cause of 14 R476, by its bit, and the field of a junction cause. -/
inductive SquallCause where
  | junction (f : Nat)
  | stack (c : Nat)
  | mainInput
  | coolant
  | cap
  deriving DecidableEq, Repr

/-- What the silicon did to the runs of a rerun (13 R444-R446): how the signatures of the two runs on the suspect and of the run on the margin
plot differ from those of a run without a hardware error (log entry 9); all zero where there is none. -/
structure RunErrors where
  suspect1 : W32
  suspect2 : W32
  margin : W32
  deriving DecidableEq, Repr

/-- What Stratus links did to the flits of a packet on its way (08 R296, 13 R441; log entry 9): how many single-bit errors were corrected, and the
64-bit words of its data that an uncorrectable error has poisoned. -/
structure NetErr where
  corrected : Nat
  poison : List Nat
  deriving DecidableEq, Repr

def NetErr.none : NetErr := { corrected := 0, poison := [] }

/-- A packet that arrives, by its place among those in flight on Stratus, and what its links did to it. -/
structure Inbound where
  n : Nat
  err : NetErr
  deriving DecidableEq, Repr

/-- Where a packet reaches the transit switch from: a port's receiver, or a Stratus attachment (11 R375, R387); the latter
by the packet's place among those on Stratus, with what the links did to it. -/
inductive SwitchIn where
  | port (p : Nat)
  | stratus (a : Inbound)
  deriving DecidableEq, Repr

/-- What a write on VC0 brings, and what the links did to it (08 R296). -/
structure Payload where
  data : Data
  err : NetErr
  deriving DecidableEq, Repr

/-- A packet that arrives, by its place among those in flight on Nimbus, and whether its parity is right (08 R296). -/
structure TallyIn where
  n : Nat
  parityOk : Bool
  deriving DecidableEq, Repr

/-- A plot's report to the root of its drain tree, and whether its packet's parity is right (08 R296, R304). -/
structure PlotReport where
  p : XY
  parityOk : Bool
  deriving DecidableEq, Repr

/-- One interval's reports of a parcel's plots, and whether their packets' parity is right (05 R206, 08 R304). -/
structure ParcelReport where
  parcel : Nat
  parityOk : Bool
  deriving DecidableEq, Repr

/-- The suspect of a rerun, and what the silicon did to its runs. -/
structure RerunRuns where
  phys : Nat
  errs : RunErrors
  deriving DecidableEq, Repr

/-- What a verdict rests on beside the signatures (13 R446): whether the plot passed the tests of 12 R421, and how the run on a second margin plot
differs from one without a hardware error. -/
structure RerunCheck where
  testsPass : Bool
  second : W32
  deriving DecidableEq, Repr

/-- A test of one plot begins, or gives its result (13 R448, R449). -/
structure TestEvent where
  phys : Nat
  result : Option PlotTest
  deriving DecidableEq, Repr

/-- What becomes of a Cirrus access on its way (08 R296, R298; log entry 9): the plot's router answers, a packet has a parity error, or no
answer comes within the bound of R303. -/
inductive Cirrus where
  | answered | parity | silent
  deriving DecidableEq, Repr

inductive Instr where
  -- host commands (15 R497, 16 R523, R526): run from the slot LEDGER_TAKE copied
  | ringSetup
  | load (atlas : List Byte)
  | run
  | release
  | drain
  | reopen
  | restore
  | swap (atlas : List Byte)
  | swapCancel
  | reproject
  | faultArea
  | epochClose
  | test (results : Option (List PlotTest))
  | calibrate
  | readCtrl
  | writeCtrl
  | fixClocks
  | unfixClocks
  | fwStage (bundle : List Byte)
  | fwActivate
  | surveyRecover
  | attest
  | debugSetLevel
  | debugPresentToken (token : List Byte)
  | debugRelock
  | edgeExport
  | edgeImport (data : Data)
  | echo
  -- host interface
  | ledgerTake
  | backlogRetry (zeroed : List Nat)
  | hostRead (proc : Proc)
  | perstN
  | hotReset
  | functionLevelReset
  | pcieLinkDown
  | badAccess (isWrite : Bool) (off len : Nat)
  -- registers
  | registerWrite (target : RegTarget) (data : List Byte)
  | pagedRead (page off size : Nat) (way : Cirrus)
  | pagedWrite (page off : Nat) (data : List Byte) (way : Cirrus)
  | cwinSelWrite (n : Nat) (value : W32)
  | memWindowRead (phys off size : Nat)
  | memWindowWrite (phys off size : Nat) (value : W64)
  | accDataWrite (phys off size : Nat) (value : W64)
  | haltReq (phys : Nat) (value : Bool)
  | step (phys : Nat)
  | fenceSet (phys : Nat)
  | fenceClear (phys : Nat)
  | placeDeviceIdWrite (value : W32)
  | torusWrite (value : W32)
  | portRoleWrite (value : W64)
  | pwrBudgetWrite (value : W32)
  | wgRetrainWrite (port : Nat)
  | wgDisableWrite (port : Nat) (value : Bool)
  | emcRetireWrite (stack : Nat)
  | wgLostSrcRead (port : Nat)
  | fieldFirstRead (field : Nat)
  -- sounding port (15 R511-R513)
  | soundingIdentityRead
  | soundingPowerRead (code : Nat)
  | soundingTemperatureRead
  | soundingResetClockRead (code : Nat)
  | soundingStageRead (code : Nat)
  | squallRequest (pecOk : Bool)
  | squallWithdraw (pecOk : Bool)
  | soundingBudgetRead
  | soundingBudgetWrite (value : W16) (pecOk : Bool)
  | alertSrcRead
  | alertResponseAddress
  -- TAP and debug port (16 R525-R530)
  | jtagBypass (shiftIn : List Bool)
  | jtagIdcode
  | jtagSamplePreload (pins : List Bool) (shiftIn : List Bool)
  | jtagExtest (shiftIn : List Bool)
  | debugPortRead (region : DebugRegion) (addr size : Nat)
  | debugPortHalt (proc : Proc)
  | debugPortStep (proc : Proc)
  | debugPortWrite (proc : Proc) (addr size : Nat) (value : W64)
  -- operations of a sheet: issued at plot p from the slot in turn (02 R74-R79)
  | noOperation (p : XY)
  | endFiring (p : XY)
  | switchRequest (p : XY)
  | tensorMac (p : XY)
  | tensorClearMac (p : XY)
  | tensorAddWords (p : XY)
  | clearTile (p : XY)
  | vectorAdd (p : XY)
  | vectorSubtract (p : XY)
  | vectorMultiply (p : XY)
  | vectorFma (p : XY)
  | vectorMin (p : XY)
  | vectorMax (p : XY)
  | vectorCompare (p : XY)
  | vectorSelect (p : XY)
  | vectorAbsoluteValue (p : XY)
  | vectorNegate (p : XY)
  | vectorConvert (p : XY)
  | exp2 (p : XY)
  | log2 (p : XY)
  | reciprocal (p : XY)
  | rsqrt (p : XY)
  | sinOfPhase (p : XY)
  | cosOfPhase (p : XY)
  | move (p : XY)
  | edgeRead (p : XY)
  | edgeWrite (p : XY)
  | send (p : XY)
  | sendTile (p : XY)
  | ringRelease (p : XY)
  | finish (p : XY)
  | beaconAdd (p : XY)
  | beaconWait (p : XY)
  | beaconSet (p : XY)
  | beaconWaitSatisfied (p : XY)
  | contourArrive (p : XY)
  | contourWait (p : XY)
  | contourArriveAndWait (p : XY)
  | commitOpen (p : XY)
  | commit (p : XY)
  | commitAbort (p : XY)
  | joinParcelCommit (p : XY)
  | joinDecision (p : XY)
  | joinConfirm (p : XY)
  -- sequencing of a plot
  | sequencerMismatch (p : XY)
  | operationComplete (p : XY) (op : Nat)
  | operandPopResume (p : XY) (op : Nat)
  | creditWaitResume (p : XY) (op : Nat)
  | firingBegin (p : XY)
  | firingComplete (p : XY)
  | sheetSwitch (p : XY)
  | sheetSwitchDone (p : XY)
  | outerIterationBegin (p : XY)
  | outerIterationComplete (p : XY)
  | steeringSwitch (p : XY) (rule : Nat)
  | steeringMerge (p : XY) (rule : Nat)
  | generationPeriodFlush (p : XY)
  -- arrivals: n is the packet's place among the packets on Stratus
  | queueMessageArrival (a : Inbound)
  | ringMessageStart (a : Inbound)
  | ringMessageLand (p : XY) (ring : Nat)
  | creditGrantArrival (a : Inbound)
  | closeNoticeArrival (a : Inbound)
  | dropNoticeArrival (a : Inbound)
  | imageWriteArrival (a : Inbound)
  | chartroomPlotWrite (p : XY) (off : Nat) (data : Payload) (signal : Option Signal)
  | controllerAskArrival (a : Inbound)
  | ticketGrantArrival (a : Inbound)
  | edgeRequestArrival (a : Inbound)
  | edgeServiceComplete (stack : Nat)
  | edgeCompletionArrival (a : Inbound)
  | ticketGiveBack (p : XY) (stack : Nat)
  | giveBackArrival (a : Inbound)
  | shareBucketRefill
  | stackTemperatureRead (stack : Nat) (celsius : Nat)
  | calibrationWindow (stack : Nat)
  | padScrub (phys line : Nat) (upsets : List Upset)
  | edgeScrub (stack addr : Nat) (upsets : List Upset)
  -- watchdog, drain, end
  | progressMark (a : PlotReport)
  | stallExpiry (a : PlotReport)
  | parcelDeadlock (parcel : Nat)
  | quiescenceReport (a : ParcelReport)
  | scanComplete (parcel : Nat)
  | drainTimeout (p : XY)
  | timeoutSettle (parcel : Nat)
  | endReport (parcel : Nat)
  | imagesDone (parcel : Nat)
  | swapTake (parcel : Nat)
  -- trees: n is the packet's place among the packets on Nimbus
  | tallyArrival (n : Nat) (parityOk : Bool)
  | tallyReturnArrival (a : TallyIn)
  | leafReturn (a : TallyIn)
  | lossNoticeArrival (tree : Nat)
  | ownerRouteTimeout (tree : Nat)
  | treeLossBroadcast (field : Nat)
  -- faults, tests and service
  | faultDrainOrder (parcel : Nat)
  | rerun (a : RerunRuns)
  | rerunVerdict (phys : Nat) (a : RerunCheck)
  | patrolTest (a : TestEvent)
  | queuedTestRun (a : TestEvent)
  | fieldSupplyFault (field : Nat)
  | routeRewrite
  | attachmentSwitch (what : Attach)
  | processorWatchdogExpiry (proc : Proc)
  | hardwareRestart (proc : Proc)
  | processorRestartComplete (proc : Proc)
  | transactionResume
  -- power
  | isobarSlot (fieldWatts : List Nat) (otherWatts mainMv standbyMv : Nat)
  | hintReport (field : Nat)
  | junctionRead (readings : List (List Nat))
  | capSample (watts : Nat)
  | capStep
  | squall (cause : SquallCause)
  | squallEnd
  | thermalTrip
  | coolantChange (inletC outletC flowTenths : Nat)
  | coolantLost
  | droopStretch (field : Nat)
  | ageingMeasure (needMv : List Nat)
  | nvBlock (standby : Bool)
  | nvUnblock
  | mainInputLoss
  | mainOverVoltage
  | standbyInputLoss
  | idleEntry
  | idleExit
  -- reset and start-up
  | powerOnReset
  | resetPulse (widthUs : Nat)
  | resetHold (widthMs : Nat)
  | releaseStep
  | domainSupplyTimeout (field : Nat)
  | imageVerify (a b : FlashReading)
  | chartroomStart (copy0Ok copy1Ok : Bool) (pcieGen pcieWidth : Nat)
  | referenceSelection (aGood bGood mainValid pllLocked : Bool) (supplyOk : List Bool)
  | stitchWireTest (results : List JoinResult)
  | triangulation (results : List PlotTest)
  | gazetteerBuild
  | edgeMemoryTraining (results : List StackTraining)
  | wengaLinkTraining
  | ready
  -- clocks
  | supervisionWindow (aVsBPpm : Int) (aOk bOk : Bool)
  | clkLost
  | refclkBFail
  -- link training and packets
  | signalDetect (port : Nat) (lanes : W16)
  | equaliseDone (port : Nat) (ok : Bool)
  | laneMapDone (port : Nat) (found : LaneMap)
  | identifyExchange (port : Nat) (peer : Peer)
  | retrainEntry (port : Nat) (why : RetrainWhy)
  | retrainDone (port : Nat) (found : Option LaneMap)
  | portDown (port : Nat)
  | downTimer (port : Nat)
  | flitReceive (port : Nat) (flit : List Byte)
  | nakReceive (port : Nat) (ack : Option Nat)
  | flitKeepalive (port : Nat)
  | wengaPacketArrival (source : SwitchIn)
  | roleHoldExpiry (role : Nat)
  | streamData (port : Nat)
  | streamCredit (port : Nat)
  | imageData (port : Nat)
  | linkCredit (port : Nat)
  | stitchModeEntry (field : Nat)
  | stitchModeExit (field : Nat)
  | segmentSupplyFault (segment : Segment)
  | standbyBranchFault (branch : Branch)
  deriving DecidableEq, Repr

end Sys2Proof
end

