-- ==== Sys2Proof/Machine/Numbers.lean ====
section
/-! DEFINITION. The number formats of spec/03_number_formats.md: layouts, exact values, the one rounding, conversion,
packing, and the arithmetic of the vector unit. A value is exact: a sign and an integer times a power of two. -/

namespace Sys2Proof.Machine

/-- The eleven formats (R78, R104). -/
inductive Fmt where
  | fp4 | e3m2 | e2m3 | e4m3 | e5m2 | int8 | int4 | bf16 | fp16 | fp32 | fp64
  deriving DecidableEq, Repr

/-- The format code of R78; 0x0B-0x3F are reserved. -/
def Fmt.ofCode : Nat → Option Fmt
  | 0 => some .fp4 | 1 => some .e3m2 | 2 => some .e2m3 | 3 => some .e4m3 | 4 => some .e5m2 | 5 => some .int8
  | 6 => some .int4 | 7 => some .bf16 | 8 => some .fp16 | 9 => some .fp32 | 10 => some .fp64 | _ => none

/-- Width in bits (R104). -/
def Fmt.bits : Fmt → Nat
  | .fp4 => 4 | .e3m2 => 6 | .e2m3 => 6 | .e4m3 => 8 | .e5m2 => 8 | .int8 => 8 | .int4 => 4
  | .bf16 => 16 | .fp16 => 16 | .fp32 => 32 | .fp64 => 64

/-- Whether the format is an integer (R113). -/
def Fmt.isInt : Fmt → Bool
  | .int8 | .int4 => true
  | _ => false

/-- Fraction bits (R109). -/
def Fmt.frac : Fmt → Nat
  | .fp4 => 1 | .e3m2 => 2 | .e2m3 => 3 | .e4m3 => 3 | .e5m2 => 2 | .int8 => 0 | .int4 => 0
  | .bf16 => 7 | .fp16 => 10 | .fp32 => 23 | .fp64 => 52

/-- Exponent bias (R109). -/
def Fmt.bias : Fmt → Nat
  | .fp4 => 1 | .e3m2 => 3 | .e2m3 => 1 | .e4m3 => 7 | .e5m2 => 15 | .int8 => 0 | .int4 => 0
  | .bf16 => 127 | .fp16 => 15 | .fp32 => 127 | .fp64 => 1023

/-- The encoding of the largest finite magnitude (R112; for the integers R113). -/
def Fmt.maxBits : Fmt → Nat
  | .fp4 => 0x7 | .e3m2 => 0x1F | .e2m3 => 0x1F | .e4m3 => 0x7E | .e5m2 => 0x7B | .int8 => 127 | .int4 => 7
  | .bf16 => 0x7F7F | .fp16 => 0x7BFF | .fp32 => 0x7F7FFFFF | .fp64 => 0x7FEFFFFFFFFFFFFF

/-- The encoding of positive infinity, where the format has one (R111). -/
def Fmt.infBits : Fmt → Option Nat
  | .e5m2 => some 0x7C | .bf16 => some 0x7F80 | .fp16 => some 0x7C00 | .fp32 => some 0x7F800000
  | .fp64 => some 0x7FF0000000000000 | _ => none

/-- The canonical NaN, where the format has one (R111). -/
def Fmt.nanBits : Fmt → Option Nat
  | .e4m3 => some 0x7F | .e5m2 => some 0x7E | .bf16 => some 0x7FC0 | .fp16 => some 0x7E00
  | .fp32 => some 0x7FC00000 | .fp64 => some 0x7FF8000000000000 | _ => none

/-- An exact value: (-1)^neg * mag * 2^exp, an infinity, or a NaN. A zero keeps its sign. -/
inductive Num where
  | nan
  | inf (neg : Bool)
  | fin (neg : Bool) (mag : Nat) (exp : Int)
  deriving DecidableEq, Repr

/-- 2^k for an integer shift of a natural: m * 2^k as a fraction (numerator, denominator). -/
def scaleFrac (m : Nat) (k : Int) : Nat × Nat :=
  match k with
  | .ofNat n => (m <<< n, 1)
  | .negSucc n => (m, 1 <<< (n + 1))

/-- The integer a two's-complement field of w bits holds. -/
def sextNat (w n : Nat) : Int :=
  let n := n % 2 ^ w
  if n < 2 ^ (w - 1) then (n : Int) else (n : Int) - (2 ^ w : Nat)

/-- The value an encoding has (R110, R111, R113). -/
def Fmt.decode (f : Fmt) (b : Nat) : Num :=
  let b := b % 2 ^ f.bits
  if f.isInt then
    let i := sextNat f.bits b
    .fin (decide (i < 0)) i.natAbs 0
  else
    let neg := b.testBit (f.bits - 1)
    let m := b % 2 ^ (f.bits - 1)
    let special := f.nanBits.isSome && decide (f.maxBits < m)
    if special then
      if f.infBits == some m then .inf neg else .nan
    else
      let e := m / 2 ^ f.frac
      let fr := m % 2 ^ f.frac
      if e == 0 then .fin neg fr (1 - f.bias - f.frac)
      else .fin neg (2 ^ f.frac + fr) ((e : Int) - f.bias - f.frac)

/-- Whether an encoding is a NaN. -/
def Fmt.isNan (f : Fmt) (b : Nat) : Bool :=
  match f.decode b with
  | .nan => true
  | _ => false

/-- Nearest integer to num/den, ties to even (R115). -/
def roundEven (num den : Nat) : Nat :=
  let q := num / den
  let r := num % den
  if 2 * r < den then q
  else if 2 * r > den then q + 1
  else q + q % 2

/-- The floor of log2 (num/den), for num > 0. -/
def floorLog2 (num den : Nat) : Int :=
  let e : Int := (num.log2 : Int) - den.log2
  let (n, d) := scaleFrac num (-e)
  if n < den * d then e - 1 else e

/-- What a rounding gave: the encoding, whether the value changed, and whether it overflowed (R117, R158). -/
structure Rounded where
  bits : Nat
  inexact : Bool
  overflow : Bool
  deriving DecidableEq, Repr

/-- What an overflow gives (R118). -/
def Fmt.overflowBits (f : Fmt) (fpInf neg : Bool) : Nat :=
  let s := if neg then 2 ^ (f.bits - 1) else 0
  if !fpInf then s + f.maxBits
  else match f.infBits with
    | some i => s + i
    | none => match f.nanBits with
      | some n => n
      | none => s + f.maxBits

/-- Round num/den * 2^exp to a floating-point format (R115-R118). -/
def Fmt.roundQ (f : Fmt) (fpInf neg : Bool) (num den : Nat) (exp : Int) : Rounded :=
  let s := if neg then 2 ^ (f.bits - 1) else 0
  if num == 0 then ⟨s, false, false⟩
  else
    let lo : Int := 1 - f.bias
    let e := max (floorLog2 num den + exp) lo
    let (a, b) := scaleFrac num (exp - (e - f.frac))
    let n := roundEven a (b * den)
    let bits := (e - lo).toNat * 2 ^ f.frac + n
    if f.maxBits < bits then ⟨f.overflowBits fpInf neg, true, true⟩
    else ⟨s + bits, n * (b * den) != a, false⟩

/-- Round to an integer format (R120). -/
def Fmt.roundInt (f : Fmt) (wrap neg : Bool) (num den : Nat) (exp : Int) : Rounded :=
  let (a, b) := scaleFrac num exp
  let n := roundEven a (b * den)
  let i : Int := if neg then -(n : Int) else n
  let hi : Int := f.maxBits
  let v := if wrap then i else if i > hi then hi else if i < -hi - 1 then -hi - 1 else i
  ⟨(v % (2 ^ f.bits : Nat)).toNat, n * (b * den) != a, decide (i > hi ∨ i < -hi - 1)⟩

/-- Convert an exact value to a format (R115-R123): one rounding. `fromFinite` says that an infinity came of finite
operands, and so counts as an overflow (R119). -/
def Fmt.convert (f : Fmt) (fpInf intWrap fromFinite : Bool) (v : Num) : Rounded :=
  match v with
  | .nan => ⟨f.nanBits.getD 0, false, false⟩
  | .inf neg =>
    if f.isInt then ⟨if neg then 2 ^ (f.bits - 1) else f.maxBits, false, false⟩
    else match f.infBits with
      | some i =>
        if fromFinite then ⟨f.overflowBits fpInf neg, true, true⟩
        else ⟨(if neg then 2 ^ (f.bits - 1) else 0) + i, false, false⟩
      | none => ⟨f.overflowBits fpInf neg, true, true⟩
  | .fin neg m e =>
    if f.isInt then f.roundInt intWrap neg m 1 e else f.roundQ fpInf neg m 1 e

/-- A finite value as an integer multiple of 2^e, for e at or below its own exponent. -/
def Num.atExp (v : Num) (e : Int) : Int :=
  match v with
  | .fin neg m x =>
    let i : Int := ((m <<< (x - e).toNat : Nat) : Int)
    if neg then -i else i
  | _ => 0

/-- Exact product (R124). -/
def Num.mul : Num → Num → Num
  | .nan, _ => .nan
  | _, .nan => .nan
  | .inf a, .inf b => .inf (a != b)
  | .inf a, .fin b m _ => if m == 0 then .nan else .inf (a != b)
  | .fin a m _, .inf b => if m == 0 then .nan else .inf (a != b)
  | .fin a m x, .fin b n y => .fin (a != b) (m * n) (x + y)

/-- Exact sum, with the signed zeros of IEEE 754 under round to nearest (R124). -/
def Num.add : Num → Num → Num
  | .nan, _ => .nan
  | _, .nan => .nan
  | .inf a, .inf b => if a == b then .inf a else .nan
  | .inf a, _ => .inf a
  | _, .inf b => .inf b
  | .fin a m x, .fin b n y =>
    let e := min x y
    let s := Num.atExp (.fin a m x) e + Num.atExp (.fin b n y) e
    if s == 0 then .fin (if m == 0 && n == 0 then a && b else false) 0 e
    else .fin (decide (s < 0)) s.natAbs e

/-- The value with its sign turned. -/
def Num.neg : Num → Num
  | .nan => .nan
  | .inf a => .inf (!a)
  | .fin a m x => .fin (!a) m x

/-- Multiply by 2^k exactly (R132). -/
def Num.scale (k : Int) : Num → Num
  | .fin a m x => .fin a m (x + k)
  | v => v

def Num.isNan : Num → Bool
  | .nan => true
  | _ => false

def Num.isFinite : Num → Bool
  | .fin .. => true
  | _ => false

def Num.isNeg : Num → Bool
  | .nan => false
  | .inf a => a
  | .fin a m _ => a && m != 0

/-- Compare two values that are not NaN: less, equal, greater. Zeros of both signs are equal. -/
def Num.cmp : Num → Num → Ordering
  | .inf true, .inf true => .eq
  | .inf false, .inf false => .eq
  | .inf true, _ => .lt
  | .inf false, _ => .gt
  | _, .inf true => .gt
  | _, .inf false => .lt
  | .fin a m x, .fin b n y =>
    let e := min x y
    compare (Num.atExp (.fin a m x) e) (Num.atExp (.fin b n y) e)
  | _, _ => .eq

/-- The total order of min and max on numbers: -0 lies below +0 (R126). -/
def Num.below (a b : Num) : Bool :=
  match a.cmp b with
  | .lt => true
  | .gt => false
  | .eq => match a, b with
    | .fin true _ _, .fin false _ _ => true
    | _, _ => false

/-- Min and max (R126). -/
def Num.min2 (a b : Num) : Num :=
  if a.isNan || b.isNan then .nan else if b.below a then b else a
def Num.max2 (a b : Num) : Num :=
  if a.isNan || b.isNan then .nan else if a.below b then b else a

/-- A compare predicate (R126, R554): 0 equal, 1 not equal, 2 less, 3 less or equal, 4 greater, 5 greater or equal. -/
def Num.test (pred : Nat) (a b : Num) : Bool :=
  if a.isNan || b.isNan then pred == 1
  else match pred, a.cmp b with
    | 0, .eq => true
    | 1, .eq => false
    | 1, _ => true
    | 2, .lt => true
    | 3, .gt => false
    | 3, _ => true
    | 4, .gt => true
    | 5, .lt => false
    | 5, _ => true
    | _, _ => false

/-- The floor of a finite value (R175). -/
def Num.floor : Num → Int
  | .fin a m x =>
    let (n, d) := scaleFrac m x
    let i : Int := if a then -(n : Int) else n
    i.fdiv d
  | _ => 0

/-- The ceiling of a finite value (R175). -/
def Num.ceil (v : Num) : Int := -(v.neg.floor)

/-! ## Packing (R105) -/

/-- A little-endian number from bytes. -/
def leNat : List Byte → Nat
  | [] => 0
  | b :: bs => b.toNat + 256 * leNat bs

/-- n bytes of a number, least significant first (R4). -/
def leBytes : Nat → Nat → List Byte
  | 0, _ => []
  | n + 1, v => BitVec.ofNat 8 v :: leBytes n (v / 256)

/-- Bytes that n elements of a format take, packed (R105). -/
def Fmt.bytesFor (f : Fmt) (n : Nat) : Nat := (n * f.bits + 7) / 8

/-- Element i of packed bytes (R105): the packings of the narrow formats are one little-endian bit string. -/
def Fmt.elem (f : Fmt) (bs : Nat) (i : Nat) : Nat := (bs >>> (i * f.bits)) % 2 ^ f.bits

/-- Pack elements from the first byte on (R105). -/
def Fmt.packNat (f : Fmt) : List Nat → Nat
  | [] => 0
  | x :: xs => x % 2 ^ f.bits + (f.packNat xs) <<< f.bits

def Fmt.pack (f : Fmt) (xs : List Nat) : List Byte := leBytes (f.bytesFor xs.length) (f.packNat xs)

/-- The byte places of element i within its packed bytes: first and last. -/
def Fmt.elemSpan (f : Fmt) (i : Nat) : Nat × Nat := (i * f.bits / 8, (i * f.bits + f.bits - 1) / 8)

end Sys2Proof.Machine
end

