-- ==== Sys2Proof/Machine/Accum.lean ====
section
/-! DEFINITION. Anchored accumulation and FP32 accumulation (spec/04_anchored_accumulation.md), block scales and the operand
stream of a tensor operation (spec/03_number_formats.md). Pure functions of words, entries and k-steps. -/

namespace Sys2Proof.Machine

/-- The classes of an accumulator word while an operation runs (R151, R153): a number (S, J), saturated, or the NaN word. -/
inductive AccV where
  | num (s : Int) (j : Bool)
  | sat (neg : Bool)
  | nan
  deriving DecidableEq, Repr

/-- The largest and least S of a number (R151). -/
def accMax : Int := 2 ^ 126 - 2
def accMin : Int := -(2 ^ 126 - 1)

/-- The class of a 128-bit word (R151). -/
def AccV.ofWord (w : W128) : AccV :=
  let i := w.toInt
  let s := i.fdiv 2
  if i == -2 ^ 127 then .nan
  else if s > accMax then .sat false
  else if s < accMin then .sat true
  else .num s (w.getLsbD 0)

/-- The word of a class, a number outside the range saturating (R154). -/
def AccV.toWord : AccV → W128
  | .nan => BitVec.ofInt 128 (-2 ^ 127)
  | .sat false => BitVec.ofInt 128 (2 ^ 127 - 1)
  | .sat true => BitVec.ofInt 128 (-2 ^ 127 + 1)
  | .num s j =>
    if s > accMax then BitVec.ofInt 128 (2 ^ 127 - 1)
    else if s < accMin then BitVec.ofInt 128 (-2 ^ 127 + 1)
    else BitVec.ofInt 128 (2 * s + (if j then 1 else 0))

/-- A product's contribution under an anchor (R152, R128). -/
def AccV.align (anchor : Int) : Num → AccV
  | .nan => .nan
  | .inf _ => .nan
  | .fin neg m x =>
    if m == 0 then .num 0 false
    else
      let (n, d) := scaleFrac m (x + 64 - anchor)
      let i : Int := if neg then -(n : Int) else n
      let s := i.fdiv d
      if s > accMax then .sat false
      else if s < accMin then .sat true
      else .num s (n % d != 0)

/-- How contributions combine (R153). -/
def AccV.combine : AccV → AccV → AccV
  | .nan, _ => .nan
  | _, .nan => .nan
  | .sat a, .sat b => if a == b then .sat a else .nan
  | .sat a, .num _ _ => .sat a
  | .num _ _, .sat b => .sat b
  | .num s j, .num t k => .num (s + t) (j || k)

/-- The value of a word read at an anchor (R150, R157): `ovf` a saturated word's sign. -/
inductive WordVal where
  | num (v : Num)
  | ovf (neg : Bool)
  | nan
  deriving DecidableEq, Repr

def wordVal (anchor : Int) (w : W128) : WordVal :=
  match AccV.ofWord w with
  | .nan => .nan
  | .sat neg => .ovf neg
  | .num _ _ =>
    let i := w.toInt
    .num (.fin (decide (i < 0)) i.natAbs (anchor - 65))

/-! ## FP32 mode (R158, R130): value in [31:0], inexact in bit 32, overflow in bit 33 -/

def fp32AccAdd (fpInf : Bool) (w : W128) (v : Num) : W128 :=
  let r := Fmt.fp32.convert fpInf false false ((Fmt.fp32.decode w.toNat).add v)
  BitVec.ofNat 128 (r.bits + (if w.getLsbD 32 || r.inexact then 2 ^ 32 else 0)
    + (if w.getLsbD 33 || r.overflow then 2 ^ 33 else 0))

/-- Adding an incoming FP32-mode word (R162): its bits 32 and 33 are ORed in. -/
def fp32AccMerge (fpInf : Bool) (w inc : W128) : W128 :=
  fp32AccAdd fpInf w (Fmt.fp32.decode inc.toNat) ||| (inc &&& BitVec.ofNat 128 (3 * 2 ^ 32))

/-- Whether a word is a NaN in the mode it is read (R141). The NaN word of R128 is defined for anchored mode only; in FP32 mode the model takes any
FP32 NaN in bits 31:0 (DESIGN CHOICE, log entry 94). -/
def wordIsNan (fp32 : Bool) (w : W128) : Bool :=
  if fp32 then Fmt.fp32.isNan w.toNat else AccV.ofWord w == .nan

/-- The tile's overflow and precision-loss flags (R155, R158). -/
def tileFlags (fp32 : Bool) (tile : List W128) : Bool × Bool :=
  if fp32 then (tile.any (·.getLsbD 33), tile.any (·.getLsbD 32))
  else (tile.any fun w => match AccV.ofWord w with | .sat _ => true | _ => false,
        tile.any fun w => AccV.ofWord w != .nan && w.getLsbD 0)

/-! ## The operand stream (R57, R60, R131-R139) -/

/-- k-steps a 32-byte entry holds (R60). -/
def Fmt.kPerEntry : Fmt → Nat
  | .fp4 | .int4 => 8
  | .bf16 | .fp16 => 2
  | _ => 4

/-- Initiation interval (R57). -/
def Fmt.initInterval : Fmt → Nat
  | .fp4 | .int4 => 1
  | .bf16 | .fp16 => 4
  | _ => 2

/-- Block size by its code (R80); 0 means no scales. -/
def blockSize : Nat → Nat
  | 1 => 8 | 2 => 16 | 3 => 32 | 4 => 64 | 5 => 128 | _ => 0

/-- One tensor operand: format, block size (0 none), direction. -/
structure TensorSide where
  fmt : Fmt
  bs : Nat
  dir : Bool
  deriving DecidableEq, Repr

/-- Whether k-step k begins a data entry, and whether it begins a scale period. -/
def TensorSide.needsData (t : TensorSide) (k : Nat) : Bool := k % t.fmt.kPerEntry == 0 || (t.bs != 0 && k % (4 * t.bs) == 0)
def TensorSide.needsScale (t : TensorSide) (k : Nat) : Bool := t.bs != 0 && k % (4 * t.bs) == 0

/-- The scale byte that covers lane i at k-step k (R133, R136). -/
def TensorSide.scalePlace (t : TensorSide) (k i : Nat) : Nat :=
  let p := k % (4 * t.bs)
  if t.dir then p / (t.bs / 8) else 8 * (p / t.bs) + i

/-- A byte of an entry, 0 past its end. -/
def dataByte (d : Data) (i : Nat) : PByte := (d[i]?).getD (0, false)

/-- Little-endian value of an entry. -/
def dataNat (d : Data) : Nat := leNat (d.map (·.1))

/-- What one side of a k-step brings: the scaled values of its 8 lanes, whether any byte used is poisoned, and the NaN inputs
as (is scale, lane) (R106, R131-R136, R141). -/
structure SideStep where
  vals : List Num
  poison : Bool
  nanScale : List Nat
  nanElem : List Nat
  deriving DecidableEq, Repr

def TensorSide.step (t : TensorSide) (k : Nat) (data scale : Data) : SideStep :=
  let raw := dataNat data
  let j := k % t.fmt.kPerEntry
  let lane (i : Nat) : Num × Bool × Bool × Bool :=
    let e := 8 * j + i
    let v := t.fmt.decode (t.fmt.elem raw e)
    let sp := t.fmt.elemSpan e
    let pe := (dataByte data sp.1).2 || (dataByte data sp.2).2
    if t.bs == 0 then (v, pe, false, v.isNan)
    else
      let sb := dataByte scale (t.scalePlace k i)
      let s := sb.1.toNat
      if s == 0xFF then (.nan, pe || sb.2, true, v.isNan)
      else (v.scale ((s : Int) - 127), pe || sb.2, false, v.isNan)
  let ls := (List.range 8).map lane
  { vals := ls.map (·.1)
    poison := ls.any (·.2.1)
    nanScale := (List.range 8).filter fun i => ((ls[i]?).map (·.2.2.1)).getD false
    nanElem := (List.range 8).filter fun i => ((ls[i]?).map (·.2.2.2)).getD false }

/-- The 64 products of a k-step, accumulator 8m + n in order (R132, R161). -/
def stepProducts (a b : SideStep) : List Num :=
  a.vals.flatMap fun x => b.vals.map fun y => x.mul y

/-- The NaN input of a k-step with the lowest source, then the lowest element (R141, R147, R148): (SOURCE, ELEMENT). -/
def stepNan (a b : SideStep) : Option (Nat × Nat) :=
  ((a.nanScale.map fun i => (1, i)) ++ (b.nanScale.map fun i => (2, i)) ++ (a.nanElem.map fun i => (3, i))
    ++ (b.nanElem.map fun i => (4, i))).head?

/-- Accumulators during an operation: anchored classes, or FP32-mode words. -/
inductive Accs where
  | anchored (l : List AccV)
  | fp32 (l : List W128)
  deriving DecidableEq, Repr

def Accs.ofTile (fp32 : Bool) (tile : List W128) : Accs :=
  if fp32 then .fp32 tile else .anchored (tile.map AccV.ofWord)

def Accs.toTile : Accs → List W128
  | .anchored l => l.map AccV.toWord
  | .fp32 l => l

/-- What a k-step or entry adds: pairs of accumulator and contribution. -/
inductive Contrib where
  | products (l : List Num)
  | words (e : Nat) (lo hi : W128)
  deriving DecidableEq, Repr

/-- Resolve one contribution (R58 cycle 5; R153, R158, R162): the accumulators after, and the first that a NaN was made in. -/
def Accs.resolve (fpInf : Bool) (anchor : Int) (c : Contrib) (a : Accs) : Accs × Option Nat :=
  let firstNew (old new : List Bool) : Option Nat :=
    (List.range 64).find? fun i => ((new[i]?).getD false) && !((old[i]?).getD false)
  match a, c with
  | .anchored l, .products ps =>
    let l' := l.zipWith (fun x p => x.combine (AccV.align anchor p)) ps
    (.anchored l', firstNew (l.map (· == .nan)) (l'.map (· == .nan)))
  | .fp32 l, .products ps =>
    let l' := l.zipWith (fun x p => fp32AccAdd fpInf x p) ps
    (.fp32 l', firstNew (l.map (wordIsNan true)) (l'.map (wordIsNan true)))
  | .anchored l, .words e lo hi =>
    let i := (2 * e) % 64
    let l' := (l.modify i (·.combine (AccV.ofWord lo))).modify (i + 1) (·.combine (AccV.ofWord hi))
    (.anchored l', firstNew (l.map (· == .nan)) (l'.map (· == .nan)))
  | .fp32 l, .words e lo hi =>
    let i := (2 * e) % 64
    let l' := (l.modify i (fp32AccMerge fpInf · lo)).modify (i + 1) (fp32AccMerge fpInf · hi)
    (.fp32 l', firstNew (l.map (wordIsNan true)) (l'.map (wordIsNan true)))

/-- Two accumulator words of a 32-byte entry (R161). -/
def entryWords (d : Data) : W128 × W128 :=
  (BitVec.ofNat 128 (leNat ((d.take 16).map (·.1))), BitVec.ofNat 128 (leNat (((d.drop 16).take 16).map (·.1))))

/-- A tile as 1,024 bytes (R556, R161). -/
def tileBytes (tile : List W128) : List Byte := tile.flatMap fun w => leBytes 16 w.toNat

/-- A tile from 1,024 bytes (R73). -/
def tileOfBytes : Nat → List Byte → List W128
  | 0, _ => []
  | n + 1, bs => BitVec.ofNat 128 (leNat (bs.take 16)) :: tileOfBytes n (bs.drop 16)

end Sys2Proof.Machine
end

