-- ==== Sys2Proof/Machine/Special.lean ====
section
/-! DEFINITION. The special functions of R63 and the activations of R167, each the exact value of its function rounded once
to FP32. A value is computed in fixed point with `fxBits` fraction bits, its error far below the distance of any FP32 input's
exact value from a rounding boundary, and then rounded once (UNVERIFIED, log entry 21). Values that are exact stay exact. -/

namespace Sys2Proof.Machine

/-- Fraction bits of the fixed-point work. -/
def fxBits : Nat := 640

def fxOne : Nat := 1 <<< fxBits

/-- Product of two fixed-point numbers. -/
def fxMul (a b : Nat) : Nat := (a * b) >>> fxBits

/-- atan(1/k) for an integer k: the alternating series, `n` terms. -/
def fxAtanInv (k : Nat) : Nat → Nat → Nat → Bool → Int → Int
  | 0, _, _, _, acc => acc
  | n + 1, p, i, neg, acc =>
    let t : Int := (p / i : Nat)
    fxAtanInv k n (p / (k * k)) (i + 2) (!neg) (if neg then acc - t else acc + t)

/-- π, by Machin's formula. -/
def fxPi : Nat :=
  (16 * fxAtanInv 5 145 (fxOne / 5) 1 false 0 - 4 * fxAtanInv 239 45 (fxOne / 239) 1 false 0).toNat

/-- ln 2 = Σ 1/(k·2^k). -/
def fxLn2Go : Nat → Nat → Nat
  | 0, acc => acc
  | k + 1, acc => fxLn2Go k (acc + (fxOne >>> (k + 1)) / (k + 1))

def fxLn2 : Nat := fxLn2Go 640 0

/-- The Taylor series of exp from term i on, for 0 <= y < 1. -/
def fxExpGo (y : Nat) : Nat → Nat → Nat → Nat → Nat
  | 0, _, _, acc => acc
  | n + 1, i, t, acc => fxExpGo y n (i + 1) (fxMul t y / i) (acc + t)

/-- e^y for 0 <= y < 1. -/
def fxExp (y : Nat) : Nat := fxExpGo y 140 1 fxOne 0

/-- atanh's series, for z at most 1/3: Σ z^(2i+1)/(2i+1). -/
def fxAtanhGo (z2 : Nat) : Nat → Nat → Nat → Nat → Nat
  | 0, _, _, acc => acc
  | n + 1, i, t, acc => fxAtanhGo z2 n (i + 2) (fxMul t z2) (acc + t / i)

/-- ln(m/d) for 1 <= m/d < 2. -/
def fxLn (m d : Nat) : Nat :=
  let z := ((m - d) <<< fxBits) / (m + d)
  2 * fxAtanhGo (fxMul z z) 205 1 z 0

/-- The series of sin (start i = 1, t = y) and cos (start i = 0, t = 1), for 0 <= y < 1. -/
def fxSinGo (y2 : Nat) : Nat → Nat → Nat → Bool → Int → Int
  | 0, _, _, _, acc => acc
  | n + 1, i, t, neg, acc =>
    fxSinGo y2 n (i + 2) (fxMul t y2 / ((i + 1) * (i + 2))) (!neg) (if neg then acc - t else acc + t)

def fxSin (y : Nat) : Nat := (fxSinGo (fxMul y y) 75 1 y false 0).toNat
def fxCos (y : Nat) : Nat := (fxSinGo (fxMul y y) 75 0 fxOne false 0).toNat

/-- Integer square root by bits, from bit n - 1 down. -/
def isqrtGo (v : Nat) : Nat → Nat → Nat
  | 0, r => r
  | n + 1, r => let c := r + 2 ^ n; isqrtGo v n (if c * c ≤ v then c else r)

def isqrt (v : Nat) : Nat := isqrtGo v (v.log2 / 2 + 1) 0

/-- Round a fixed-point magnitude, times 2^k, to FP32. -/
def fxRound (fpInf neg : Bool) (m : Nat) (k : Int) : Nat := (Fmt.fp32.roundQ fpInf neg m 1 (k - fxBits)).bits

/-- A fixed-point number from a finite value, towards minus infinity; the value stays below 2^128. -/
def fxOf (v : Num) : Int :=
  match v with
  | .fin neg m x =>
    let (n, d) := scaleFrac m (x + fxBits)
    let i : Int := if neg then -(n : Int) else n
    i.fdiv d
  | _ => 0

/-- e^y as m * 2^k with 1 <= m < 2, for any fixed-point y. -/
def fxExpScaled (y : Int) : Nat × Int :=
  let k := y.fdiv fxLn2
  (fxExp (y - k * fxLn2).toNat, k)

/-- A scaled pair as a fixed-point number (rounded down). -/
def fxUnscale (p : Nat × Int) : Nat :=
  match p.2 with
  | .ofNat n => p.1 <<< n
  | .negSucc n => p.1 >>> (n + 1)

/-- 1/(1 + e^-y) as m * 2^k: for y < 0 it is e^y/(1 + e^y), kept with its own exponent. -/
def fxSigmoid (y : Int) : Nat × Int :=
  if 0 ≤ y then
    ((fxOne <<< fxBits) / (fxOne + fxUnscale (fxExpScaled (-y))), 0)
  else
    let e := fxExpScaled y
    ((e.1 <<< fxBits) / (fxOne + fxUnscale e), e.2)

/-- erf(z) for 0 <= z: 2/√π·e^(-z²)·Σ 2^n z^(2n+1)/(1·3·…·(2n+1)). -/
def fxErfGo (z2 : Nat) : Nat → Nat → Nat → Nat → Nat
  | 0, _, _, acc => acc
  | n + 1, i, t, acc => fxErfGo z2 n (i + 2) (2 * fxMul t z2 / (i + 2)) (acc + t)

/-- e^(-y) for y >= 0, as fixed point. -/
def fxExpNeg (y : Nat) : Nat := fxUnscale (fxExpScaled (-(y : Int)))

def fxErf (z : Nat) : Nat :=
  let z2 := fxMul z z
  let s := fxErfGo z2 1100 1 z 0
  let sp := isqrt (fxPi <<< fxBits)
  fxMul (fxMul s (fxExpNeg z2)) ((2 * fxOne <<< fxBits) / sp)

/-- Whether a finite magnitude is at least 2^k. -/
def atLeastPow (m : Nat) (x : Int) (k : Int) : Bool := m != 0 && decide (k ≤ (m.log2 : Int) + x)

/-- exp2 (R63, R127). -/
def sfExp2 (fpInf : Bool) (v : Num) : Nat :=
  match v with
  | .nan => 0x7FC00000
  | .inf false => 0x7F800000
  | .inf true => 0
  | .fin neg m x =>
    if m == 0 then 0x3F800000
    else if atLeastPow m x 8 then
      if neg then 0 else Fmt.fp32.overflowBits fpInf false
    else
      let y := fxOf v
      let q := y.fdiv fxOne
      let f := (y - q * fxOne).toNat
      fxRound fpInf false (fxExp (fxMul f fxLn2)) q

/-- log2 (R63, R127, R119). -/
def sfLog2 (fpInf : Bool) (v : Num) : Nat :=
  match v with
  | .nan => 0x7FC00000
  | .inf false => 0x7F800000
  | .inf true => 0x7FC00000
  | .fin neg m x =>
    if m == 0 then Fmt.fp32.overflowBits fpInf true
    else if neg then 0x7FC00000
    else
      let l := m.log2
      let e : Int := x + l
      let lg : Nat := (fxLn m (1 <<< l) <<< fxBits) / fxLn2
      let t : Int := e * fxOne + lg
      if t == 0 then 0 else fxRound fpInf (decide (t < 0)) t.natAbs 0

/-- Reciprocal (R63, R127, R119). -/
def sfRecip (fpInf : Bool) (v : Num) : Nat :=
  match v with
  | .nan => 0x7FC00000
  | .inf neg => if neg then 0x80000000 else 0
  | .fin neg m x =>
    if m == 0 then Fmt.fp32.overflowBits fpInf neg
    else (Fmt.fp32.roundQ fpInf neg 1 m (-x)).bits

/-- rsqrt (R63, R127, R119). -/
def sfRsqrt (fpInf : Bool) (v : Num) : Nat :=
  match v with
  | .nan => 0x7FC00000
  | .inf false => 0
  | .inf true => 0x7FC00000
  | .fin neg m x =>
    if m == 0 then Fmt.fp32.overflowBits fpInf neg
    else if neg then 0x7FC00000
    else
      let odd := x % 2 != 0
      let m' := if odd then 2 * m else m
      let x' := if odd then x - 1 else x
      let r := isqrt ((1 <<< (2 * fxBits + 320)) / m')
      (Fmt.fp32.roundQ fpInf false r 1 (-(x' / 2) - fxBits - 160)).bits

/-- sin of a phase in [0, 1/8 turn] of 2^32 a turn, as fixed point. -/
def fxSinPhase (p : Nat) : Nat := fxSin ((2 * fxPi * p) >>> 32)
def fxCosPhase (p : Nat) : Nat := fxCos ((2 * fxPi * p) >>> 32)

/-- sin of phase in the first quarter turn, 0 <= p <= 2^30. -/
def fxSinQuarter (p : Nat) : Nat :=
  if p ≤ 2 ^ 29 then fxSinPhase p else fxCosPhase (2 ^ 30 - p)

/-- sin of phase (R63): a zero is +0. -/
def sfSin (p : Nat) : Nat :=
  let p := p % 2 ^ 32
  let h := p % 2 ^ 31
  let q := if h ≤ 2 ^ 30 then h else 2 ^ 31 - h
  if q == 0 then 0 else fxRound false (decide (2 ^ 31 ≤ p)) (fxSinQuarter q) 0

/-- cos of phase: a quarter turn on. -/
def sfCos (p : Nat) : Nat := sfSin (p + 2 ^ 30)

/-- x times a positive factor m * 2^k in fixed point, rounded once with x's sign. -/
def mulRound (neg : Bool) (m : Nat) (x : Int) (f : Nat × Int) : Nat :=
  fxRound false neg (m * f.1) (x + f.2)

/-- The tanh form of GELU (R167): x·sigmoid(2z), z = √(2/π)·(x + 0.044715·x³). An input of −0 gives −0: no rule states the sign of an exact zero (DESIGN CHOICE, log entry 95). -/
def actGeluTanh (fpInf : Bool) (v : Num) : Nat :=
  match v with
  | .nan => 0x7FC00000
  | .inf neg => if neg then 0x80000000 else (Fmt.fp32.convert fpInf false false v).bits
  | .fin neg m x =>
    if m == 0 then (if neg then 0x80000000 else 0)
    else if atLeastPow m x 6 then
      if neg then 0x80000000 else (Fmt.fp32.convert fpInf false false v).bits
    else
      let a := (fxOf (.fin false m x)).toNat
      let a3 := fxMul (fxMul a a) a
      let c := isqrt ((2 * fxOne <<< (2 * fxBits)) / fxPi)
      let z := fxMul c (a + a3 * 44715 / 1000000)
      mulRound neg m x (fxSigmoid (if neg then -(2 * z : Nat) else (2 * z : Nat)))

/-- The erf form of GELU (R167). An input of −0 gives −0: no rule states the sign of an exact zero (DESIGN CHOICE, log entry 95). -/
def actGeluErf (fpInf : Bool) (v : Num) : Nat :=
  match v with
  | .nan => 0x7FC00000
  | .inf neg => if neg then 0x80000000 else (Fmt.fp32.convert fpInf false false v).bits
  | .fin neg m x =>
    if m == 0 then (if neg then 0x80000000 else 0)
    else if atLeastPow m x 4 then
      if neg then 0x80000000 else (Fmt.fp32.convert fpInf false false v).bits
    else
      let a := (fxOf (.fin false m x)).toNat
      let z := isqrt (a * a / 2)
      let e := fxErf z
      mulRound neg m x (if neg then fxOne - e else fxOne + e, -1)

/-- SiLU (R167). An input of −0 gives −0: no rule states the sign of an exact zero (DESIGN CHOICE, log entry 95). -/
def actSilu (fpInf : Bool) (v : Num) : Nat :=
  match v with
  | .nan => 0x7FC00000
  | .inf neg => if neg then 0x80000000 else (Fmt.fp32.convert fpInf false false v).bits
  | .fin neg m x =>
    if m == 0 then (if neg then 0x80000000 else 0)
    else if atLeastPow m x 8 then
      if neg then 0x80000000 else (Fmt.fp32.convert fpInf false false v).bits
    else mulRound neg m x (fxSigmoid (fxOf v))

/-- Sigmoid (R167). -/
def actSigmoid (v : Num) : Nat :=
  match v with
  | .nan => 0x7FC00000
  | .inf neg => if neg then 0 else 0x3F800000
  | .fin neg m x =>
    if atLeastPow m x 8 then (if neg then 0 else 0x3F800000)
    else
      let p := fxSigmoid (fxOf v)
      fxRound false false p.1 p.2

/-- tanh (R167): (1 - e^-2a)/(1 + e^-2a) with the sign of x. An input of −0 gives −0: no rule states the sign of an exact zero (DESIGN CHOICE, log entry 95). -/
def actTanh (v : Num) : Nat :=
  match v with
  | .nan => 0x7FC00000
  | .inf neg => if neg then 0xBF800000 else 0x3F800000
  | .fin neg m x =>
    if m == 0 then (if neg then 0x80000000 else 0)
    else if atLeastPow m x 7 then (if neg then 0xBF800000 else 0x3F800000)
    else
      let a := (fxOf (.fin false m x)).toNat
      let u := fxExpNeg (2 * a)
      fxRound false neg (((fxOne - u) <<< fxBits) / (fxOne + u)) 0

/-- ln(1 + u) for 0 <= u <= 1 in fixed point. -/
def fxLn1p (u : Nat) : Nat :=
  let z := (u <<< fxBits) / (2 * fxOne + u)
  2 * fxAtanhGo (fxMul z z) 205 1 z 0

/-- Softplus (R167): max(x, 0) + ln(1 + e^-|x|). -/
def actSoftplus (fpInf : Bool) (v : Num) : Nat :=
  match v with
  | .nan => 0x7FC00000
  | .inf neg => if neg then 0 else (Fmt.fp32.convert fpInf false false v).bits
  | .fin neg m x =>
    if atLeastPow m x 8 then
      if neg then 0 else (Fmt.fp32.convert fpInf false false v).bits
    else
      let y := fxOf v
      let l := fxLn1p (fxExpNeg y.natAbs)
      fxRound false false ((if y < 0 then 0 else y.toNat) + l) 0

end Sys2Proof.Machine
end

