-- ==== Sys2Proof/Machine/Finish.lean ====
section
/-! DEFINITION. The finishing stage and the streaming normaliser (spec/04_anchored_accumulation.md R157-R177): pure
functions from a tile, the sheet's finishing parameters and the operation to output elements, units and scales. -/

namespace Sys2Proof.Machine

/-- The finishing parameters of a sheet (R163, R164). -/
structure FinPar where
  scale : List Nat
  bias : List Nat
  freq : List Nat
  accMode : Nat
  scaleEn : Bool
  biasEn : Bool
  act : Nat
  clipEn : Bool
  outFmt : Nat
  order : Bool
  genBlock : Nat
  genDir : Bool
  normEn : Bool
  ctlReserved : Nat
  clipLo : Nat
  clipHi : Nat
  actParam : Nat
  normRef : Int
  reservedTail : Nat
  deriving DecidableEq, Repr

/-- Bits hi..lo of a number. -/
def bitsOf (n hi lo : Nat) : Nat := (n >>> lo) % 2 ^ (hi + 1 - lo)

/-- Eight 32-bit words from a byte offset of a number. -/
def words8 (n off : Nat) : List Nat := (List.range 8).map fun i => bitsOf n (8 * (off + 4 * i) + 31) (8 * (off + 4 * i))

/-- Read the parameters from sheet bytes 0x040-0x0BF, given as one little-endian number. -/
def FinPar.parse (n : Nat) : FinPar :=
  let c := bitsOf n (8 * 0x60 + 31) (8 * 0x60)
  { scale := words8 n 0, bias := words8 n 0x20, freq := words8 n 0x40
    accMode := bitsOf c 1 0, scaleEn := c.testBit 2, biasEn := c.testBit 3, act := bitsOf c 7 4, clipEn := c.testBit 8
    outFmt := bitsOf c 14 9, order := c.testBit 15, genBlock := bitsOf c 18 16, genDir := c.testBit 19
    normEn := c.testBit 20, ctlReserved := bitsOf c 31 21
    clipLo := bitsOf n (8 * 0x64 + 31) (8 * 0x64), clipHi := bitsOf n (8 * 0x68 + 31) (8 * 0x68)
    actParam := bitsOf n (8 * 0x6C + 31) (8 * 0x6C), normRef := sextNat 16 (bitsOf n (8 * 0x70 + 15) (8 * 0x70))
    reservedTail := bitsOf n (8 * 0x80 - 1) (8 * 0x72) }

/-- The output format; a reserved code never passes R165. -/
def FinPar.fmt (p : FinPar) : Fmt := (Fmt.ofCode p.outFmt).getD .fp32

/-- The format the stage works in (R166). -/
def FinPar.work (p : FinPar) : Fmt := if p.fmt == .fp64 then .fp64 else .fp32

/-- The refusals of R165. -/
def FinPar.bad (p : FinPar) : Bool :=
  let nan32 (b : Nat) := Fmt.fp32.isNan b
  p.accMode ≥ 2 || p.act ≥ 11 || (Fmt.ofCode p.outFmt).isNone || p.genBlock ≥ 3 || p.ctlReserved != 0 || p.reservedTail != 0
  || (p.clipEn && (nan32 p.clipLo || nan32 p.clipHi
      || (Fmt.fp32.decode p.clipLo).cmp (Fmt.fp32.decode p.clipHi) == .gt))
  || (p.fmt == .fp64 && (p.act > 1 || p.genBlock != 0 || p.normEn))
  || (p.genBlock != 0 && (p.fmt == .fp32 || p.fmt == .fp64))
  || (p.normEn && ((p.fmt != .bf16 && p.fmt != .e4m3) || !p.order || p.genBlock != 1 || p.genDir || p.act != 0))

/-- A finish operation's own fields (R173, R118, R120). -/
structure FinOp where
  loc : Nat
  periodEnd : Bool
  normReset : Bool
  maskFrom : Nat
  posStep : Nat
  anchor : Int
  fpInf : Bool
  intWrap : Bool
  deriving DecidableEq, Repr

/-- A parameter, an FP32 number, in the working format: widening is exact (R166). -/
def FinPar.par (p : FinPar) (b : Nat) : Num :=
  let _ := p
  Fmt.fp32.decode b

/-- The first step: a word out of the tile in the working format (R157, R158). -/
def FinPar.convertWord (p : FinPar) (o : FinOp) (w : W128) : Nat :=
  if p.accMode == 1 then (p.work.convert o.fpInf false false (Fmt.fp32.decode w.toNat)).bits
  else match wordVal o.anchor w with
    | .nan => p.work.nanBits.getD 0
    | .ovf neg => p.work.overflowBits o.fpInf neg
    | .num v => (p.work.convert o.fpInf false false v).bits

/-- Scale and bias with one rounding (R166). -/
def FinPar.scaleBias (p : FinPar) (o : FinOp) (n x : Nat) : Nat :=
  if !p.scaleEn && !p.biasEn then x
  else
    let v := p.work.decode x
    let v := if p.scaleEn then v.mul (p.par ((p.scale[n]?).getD 0)) else v
    let v := if p.biasEn then v.add (p.par ((p.bias[n]?).getD 0)) else v
    (p.work.convert o.fpInf false false v).bits

/-- Clip (R168): a NaN passes through. -/
def FinPar.clip (p : FinPar) (x : Nat) : Nat :=
  if !p.clipEn then x
  else
    let v := p.work.decode x
    if v.isNan then x
    else if v.cmp (p.par p.clipLo) == .lt then (p.work.convert false false false (p.par p.clipLo)).bits
    else if v.cmp (p.par p.clipHi) == .gt then (p.work.convert false false false (p.par p.clipHi)).bits
    else x

/-- The activations 0-9 on one element (R167). -/
def FinPar.activate (p : FinPar) (o : FinOp) (x : Nat) : Nat :=
  let v := p.work.decode x
  if v.isNan then p.work.nanBits.getD 0
  else match p.act with
    | 1 => if v.isNeg || v.cmp (.fin false 0 0) == .eq then 0 else x
    | 2 => if v.isNeg then (p.work.convert o.fpInf false false ((p.par p.actParam).mul v)).bits else x
    | 3 => actGeluTanh o.fpInf v
    | 4 => actGeluErf o.fpInf v
    | 5 => actSilu o.fpInf v
    | 6 => actSigmoid v
    | 7 => actTanh v
    | 8 => actSoftplus o.fpInf v
    | 9 => sfExp2 o.fpInf v
    | _ => x

/-- The rotary rotation of one row (R177): pairs (2j, 2j + 1) by the phase of POS + m. -/
def FinPar.rotateRow (p : FinPar) (o : FinOp) (pos m : Nat) (row : List Nat) : List Nat :=
  (List.range 8).map fun n =>
    let j := n / 2
    let ph := (((pos + m) % 2 ^ 24) * ((p.freq[2 * j]?).getD 0)) % 2 ^ 32
    let x := Fmt.fp32.decode ((row[2 * j]?).getD 0)
    let y := Fmt.fp32.decode ((row[2 * j + 1]?).getD 0)
    let c := Fmt.fp32.decode (sfCos ph)
    let s := Fmt.fp32.decode (sfSin ph)
    let v := if n % 2 == 0 then (x.mul c).add (y.mul s).neg else (x.mul s).add (y.mul c)
    (Fmt.fp32.convert o.fpInf false false v).bits

/-- The normaliser on one row (R175): the new maximum (none as `none`), the elements in the output format, the scale byte. -/
def FinPar.normRow (p : FinPar) (o : FinOp) (mx : Option Int) (row : List Nat) : Option Int × List Nat × Nat :=
  let s : List Num := (List.range 8).map fun n =>
    if o.maskFrom != 0 && n ≥ o.maskFrom then .inf true else Fmt.fp32.decode ((row[n]?).getD 0)
  let cs : List Int := (s.filter (·.isFinite)).map fun v => max (-32767) (min 32767 v.ceil)
  let mx' := match cs with
    | [] => mx
    | c0 :: rest =>
      let c := rest.foldl max c0
      match mx with
      | none => some c
      | some m => if c > m then some c else some m
  let elems := s.map fun v =>
    match v, mx' with
    | .nan, _ => p.fmt.nanBits.getD 0
    | .inf false, _ => p.fmt.nanBits.getD 0
    | .inf true, _ => 0
    | _, none => 0
    | .fin a m x, some big =>
      let q := Num.floor (.fin a m x)
      let f := (Num.fin a m x).add (.fin (decide (0 ≤ q)) q.natAbs 0)
      let e := Fmt.fp32.decode (sfExp2 false f)
      (p.fmt.convert o.fpInf false false (e.scale (q - big))).bits
  let byte := match mx' with
    | none => 0x7F
    | some m => let d := m - p.normRef; if d < -127 || d > 127 then 0xFF else (d + 127).toNat
  (mx', elems, byte)

/-- The row maxima of R174 out of two state registers, and back. -/
def maximaOf (lo hi : W64) : List (Option Int) :=
  (List.range 8).map fun m =>
    let v := bitsOf (if m < 4 then lo.toNat else hi.toNat) (16 * (m % 4) + 15) (16 * (m % 4))
    if v == 0x8000 then none else some (sextNat 16 v)

def maximaTo (l : List (Option Int)) : W64 × W64 :=
  let enc (i : Nat) : Nat := match (l[i]?).getD none with
    | none => 0x8000
    | some v => (v % 65536).toNat
  let pack (b : Nat) : W64 := BitVec.ofNat 64 (enc b + enc (b + 1) * 2 ^ 16 + enc (b + 2) * 2 ^ 32 + enc (b + 3) * 2 ^ 48)
  (pack 0, pack 4)

/-- What a finish makes of a tile: the 64 values before output conversion (FP32 or FP64 encodings; output-format encodings
with the normaliser), the scale bytes of the normaliser's rows, the state registers after, the consumed NaN that stops it
(ELEMENT), and the first element a NaN arose in. -/
structure FinResult where
  vals : List Nat
  rowScales : List Nat
  loc0 : W64
  loc1 : W64
  consumed : Option Nat
  produced : Option Nat
  deriving DecidableEq, Repr

/-- The consumed NaN that is detected first (R141, R143, R148): a word of row m in cycle m, SCALE and BIAS in cycle m + 3,
ACT_PARAM in cycle m + 5; then the lowest element. `pre` holds the values before the activation. -/
def FinPar.consumedNan (p : FinPar) (tile : List W128) (pre : List Nat) : Option Nat :=
  let at8 (i : Nat) (c : Nat) (b : Bool) : List (Nat × Nat) := if b then [(i / 8 + c, i)] else []
  let cands := (List.range 64).flatMap fun i =>
    let n := i % 8
    at8 i 0 (wordIsNan (p.accMode == 1) ((tile[i]?).getD 0))
    ++ at8 i 3 ((p.scaleEn && Fmt.fp32.isNan ((p.scale[n]?).getD 0)) || (p.biasEn && Fmt.fp32.isNan ((p.bias[n]?).getD 0)))
    ++ at8 i 5 (p.act == 2 && Fmt.fp32.isNan p.actParam && (p.work.decode ((pre[i]?).getD 0)).isNeg)
  (cands.foldl (fun (acc : Option (Nat × Nat)) c =>
    match acc with
    | none => some c
    | some a => if c.1 < a.1 || (c.1 == a.1 && c.2 < a.2) then some c else some a) none).map (·.2)

/-- The finishing steps on a tile up to the output conversion (R166, R174-R177). -/
def FinPar.run (p : FinPar) (o : FinOp) (tile : List W128) (loc0 loc1 : W64) : FinResult :=
  let pre := (List.range 64).map fun i => p.scaleBias o (i % 8) (p.convertWord o ((tile[i]?).getD 0))
  let consumed := p.consumedNan tile pre
  if p.normEn then
    let clipped := pre.map p.clip
    let mx0 := if o.normReset then List.replicate 8 none else maximaOf loc0 loc1
    let rows := (List.range 8).map fun m => p.normRow o ((mx0[m]?).getD none) ((clipped.drop (8 * m)).take 8)
    let vals := rows.flatMap (·.2.1)
    let (l0, l1) := maximaTo (rows.map (·.1))
    { vals := vals, rowScales := rows.map (·.2.2), loc0 := l0, loc1 := l1, consumed := consumed
      produced := (List.range 64).find? fun i =>
        p.work.isNan ((pre[i]?).getD 0) || p.fmt.isNan ((vals[i]?).getD 0) }
  else
    let pos := loc0.toNat % 2 ^ 24
    let act := if p.act == 10 then
        (List.range 8).flatMap fun m => p.rotateRow o pos m ((pre.drop (8 * m)).take 8)
      else pre.map (p.activate o)
    let vals := act.map p.clip
    let l0 := if p.act == 10 then
        BitVec.ofNat 64 (loc0.toNat - pos + (pos + o.posStep) % 2 ^ 24) else loc0
    { vals := vals, rowScales := [], loc0 := l0, loc1 := loc1, consumed := consumed
      produced := (List.range 64).find? fun i =>
        p.work.isNan ((pre[i]?).getD 0) || p.work.isNan ((act[i]?).getD 0)
        || ((p.genBlock == 0 || !(p.work.decode ((vals[i]?).getD 0)).isFinite)
          && p.fmt.isNan ((p.fmt.convert o.fpInf o.intWrap false (p.work.decode ((vals[i]?).getD 0))).bits)) }

/-- The output conversion of one element (R169). -/
def FinPar.out (p : FinPar) (o : FinOp) (x : Nat) : Nat :=
  (p.fmt.convert o.fpInf o.intWrap false (p.work.decode x)).bits

/-- Elements of a 32-byte unit (R60, R169). -/
def Fmt.perUnit : Fmt → Nat
  | .fp4 | .int4 => 64
  | .bf16 | .fp16 => 16
  | .fp32 => 8
  | .fp64 => 4
  | _ => 32

/-- Cut encodings into 32-byte units (R105, R169). FP6 fills 24 bytes; the spec gives the other 8 no value, and `pad` is
theirs (log entry 1). -/
def Fmt.units (f : Fmt) (pad : W64) : Nat → List Nat → List (List Byte)
  | 0, _ => []
  | n + 1, xs =>
    let u := f.pack (xs.take f.perUnit)
    (u ++ (leBytes 8 pad.toNat).take (32 - u.length)) :: f.units pad n (xs.drop f.perUnit)

/-- Row-major or column-major order of a tile's elements (R164, R169). -/
def FinPar.ordered (p : FinPar) (xs : List Nat) : List Nat :=
  if p.order then (List.range 64).map fun i => (xs[8 * (i % 8) + i / 8]?).getD 0 else xs

/-- The units of a finish without block-scale generation. -/
def FinPar.plainUnits (p : FinPar) (o : FinOp) (pad : W64) (vals : List Nat) : List (List Byte) :=
  p.fmt.units pad (64 / p.fmt.perUnit) (p.ordered (vals.map (p.out o)))

/-- One tile of an open generation period (R171): its ordered values (k-step j of the tile at 8j), the flags of its own
operation, and the row scale bytes when the normaliser made it. -/
structure GenTile where
  vals : List Nat
  fpInf : Bool
  intWrap : Bool
  rowScales : List Nat
  deriving DecidableEq, Repr

/-- Block size of generation in elements (R164), and tiles in a whole period (R171). -/
def FinPar.genBs (p : FinPar) : Nat := if p.genBlock == 2 then 16 else 8
def FinPar.genTiles (p : FinPar) : Nat := p.genBs / 2

/-- The scale exponent of a block (R170). -/
def FinPar.blockExp (p : FinPar) (vs : List Num) : Int :=
  let big := (vs.filter (·.isFinite)).foldl (fun (a : Num) v =>
    let m : Num := match v with | .fin _ m x => .fin false m x | w => w
    if a.cmp m == .lt then m else a) (.fin false 0 0)
  match big, p.fmt.decode p.fmt.maxBits with
  | .fin _ m x, .fin _ n y =>
    if m == 0 then 0
    else
      let k : Int := (floorLog2 m n) + x - y
      let fits (k : Int) : Bool := (Num.fin false m (x - k)).cmp (.fin false n y) != .gt
      max (-127) (min 127 (if fits k then k else k + 1))
  | _, _ => 0

/-- Block of an element of the period: k-step and lane to scale byte (R133, R136). -/
def FinPar.blockOf (p : FinPar) (k i : Nat) : Nat :=
  if p.genDir then k / (p.genBs / 8) else 8 * (k / p.genBs) + i

/-- The units of a period: the scale entry, then the data entries of the tiles supplied (R170, R171); 0x7F in a byte that
covers no k-step. -/
def FinPar.periodUnits (p : FinPar) (pad : W64) (tiles : List GenTile) : List (List Byte) :=
  let ks := 8 * tiles.length
  let val (k i : Nat) : Nat := (((tiles[k / 8]?).bind (·.vals[8 * (k % 8) + i]?))).getD 0
  let members (b : Nat) : List (Nat × Nat) :=
    (List.range ks).flatMap fun k => ((List.range 8).filter fun i => p.blockOf k i == b).map fun i => (k, i)
  let expOf (b : Nat) : Int := p.blockExp ((members b).map fun ki => Fmt.fp32.decode (val ki.1 ki.2))
  let exps := (List.range 32).map expOf
  let byteOf (b : Nat) : Nat :=
    if p.normEn then (((tiles[b / 8]?).bind (·.rowScales[b % 8]?))).getD 0x7F
    else if (members b).isEmpty then 0x7F
    else if (members b).any fun ki => Fmt.fp32.isNan (val ki.1 ki.2) then 0xFF
    else ((exps[b]?).getD 0 + 127).toNat
  let elems := (List.range ks).flatMap fun k => (List.range 8).map fun i =>
    let x := val k i
    if p.normEn then x
    else match tiles[k / 8]? with
      | none => 0
      | some t => (p.fmt.convert t.fpInf t.intWrap false ((Fmt.fp32.decode x).scale (-((exps[p.blockOf k i]?).getD 0)))).bits
  ((List.range 32).map fun b => BitVec.ofNat 8 (byteOf b))
    :: p.fmt.units pad (ks * 8 / p.fmt.perUnit) elems

end Sys2Proof.Machine
end

