-- ==== Sys2Proof/Machine/PlotState.lean ====
section
/-! DEFINITION. The state of one plot, as plain data: spec/02_plots.md R42 and the chapters it points to. Each structure names
the rules that give it. Lists of fixed length are 16 queues, 16 channels, 8 rings, 32 beacons, 16 slots, 8 sheets. -/

namespace Sys2Proof.Machine

/-- PLOT_STATUS.STATE, in the order of its codes (R92). -/
inductive PState where
  | idle | loaded | running | draining | quiescent | faulted | fenced | test
  deriving DecidableEq, Repr

/-- Protected memory: bytes by address, and the syndrome of each 64-bit word that is not clean, by word number (09 R311). An
unlisted byte is 0 and an unlisted syndrome is 0. -/
structure Mem where
  bytes : List Host.Cell
  syn : List (Nat × Byte)
  deriving DecidableEq, Repr

/-- A message on a channel or stream (06 R217-R221): where it lands, its data, who sent it, and whether a flit of it was lost at a ratioed
crossing, so that its last byte never comes (08 R308). -/
structure Message where
  dev : Nat
  x : Nat
  y : Nat
  ring : Bool
  index : Nat
  data : Data
  srcDev : Nat
  srcX : Nat
  srcY : Nat
  srcCh : Nat
  srcPort : Bool
  signal : Option Signal
  commit : Bool
  short : Bool
  deriving DecidableEq, Repr

/-- The one writer of a queue or ring (06 R215, R216): a channel of a plot, or a stream of a port. -/
inductive Writer where
  | channel (dev x y ch : Nat) (inside : Bool)
  | stream (port stream : Nat)
  deriving DecidableEq, Repr

/-- An inbound queue (02 R83, R100, 06 R228); entries hold 32 bytes, head first. -/
structure Queue where
  entries : List Data
  closed : Bool
  owed : Nat
  pops : Nat
  deriving DecidableEq, Repr

/-- An outbound channel (06 R218, R241). -/
structure Channel where
  dest : W64
  rsz : Nat
  latMsgs : Nat
  latStalls : Nat
  latDrops : Nat
  latWrap : BitVec 3
  msgs : Nat
  stalls : Nat
  drops : Nat
  wrap : BitVec 3
  deriving DecidableEq, Repr

/-- A ring message part-way through landing (06 R233). -/
structure Landing where
  start : Nat
  units : Nat
  msg : Message
  deriving DecidableEq, Repr

/-- A ring descriptor (06 R235). -/
structure Ring where
  base : Nat
  rsz : Nat
  enable : Bool
  head : Nat
  left : Nat
  tail : Nat
  used : Nat
  msgs : Nat
  closed : Bool
  pops : Nat
  owed : Nat
  landing : Option Landing
  deriving DecidableEq, Repr

/-- A Nimbus packet (08 R304), with the plot it goes to, the plot or root it comes from, and the epoch that a root's return on
an epoch tree of the module carries (15 R509). -/
structure TallyPkt where
  srcX : Nat
  srcY : Nat
  x : Nat
  y : Nat
  slot : Nat
  kind : Nat
  tree : Nat
  status : Nat
  tally : Nat
  deriving DecidableEq, Repr

/-- A Nimbus slot (07 R252, R253): its two words, the status that a lost tree now completes with (07 R260, 13 R455; 0 none), the member
devices that its root has lost (07 R260), and the packets held while it is inactive (07 R261). -/
structure Slot where
  w0 : W64
  w1 : W64
  lost : Nat
  gone : List Nat
  held : List TallyPkt
  deriving DecidableEq, Repr

/-- One shadow-buffer entry (02 R85, 07 R265). -/
structure Store where
  addr : Nat
  data : Data
  deriving DecidableEq, Repr

/-- A held send (07 R266): the operation, its firing number and sheet, the credit it took, its signal. -/
structure HeldSend where
  word : W128
  number : Nat
  sheet : Nat
  credit : Nat
  deriving DecidableEq, Repr

/-- Commit-group state (07 R263-R273). `firing` and `opened` are the firing and the operation that opened it. `step` is how far a join has come: 0 not joined, 2 voted and waiting for the decision, 4
carried out, confirming. `owes` is the slot at which the plot still has to confirm a parcel commit that its group left without a join
(R273, R276). -/
structure Group where
  state : Nat
  parcel : Bool
  slot : Nat
  voted : Bool
  last : Nat
  flags : BitVec 6
  stores : List Store
  sends : List HeldSend
  tails : List (Nat × Nat)
  firing : Nat
  overflowed : Bool
  opened : Nat
  step : Nat
  used : Nat
  heldCount : Nat
  owes : Option Nat
  deriving DecidableEq, Repr

/-- What an operation in flight waits on; `behind`, for finish units, an earlier finish's units (04 R172). -/
inductive Wait where
  | none
  | pop
  | credit (ch : Nat)
  | behind
  | ticket (c : Nat)
  | beacon
  | contour
  | join
  deriving DecidableEq, Repr

/-- An operation in flight (02 R74, R75): its firing, sheet and slot, the bytes its repetition adds to
ADDR (05 R195), its word, how many units are done, the partial
sums of a tensor operation and the k-steps not yet resolved, the entries at hand, the TRAP_OPND words as at issue, units made and
not yet delivered, and what it waits on. `work` is true until the last unit is done. `grp` is 0 for an operation that issued outside a
commit group, else one more than the operation that opened its group (07 R265, R266). -/
structure Flight where
  id : Nat
  firing : Nat
  sheet : Nat
  slot : Nat
  rep : Nat
  number : Nat
  word : W128
  trapA : W32
  trapB : W32
  done : Nat
  accs : Option Accs
  pend : List (Nat × Contrib)
  aData : Data
  aScale : Data
  bData : Data
  bScale : Data
  aReady : Bool
  part : Data
  out : List Data
  outDone : Nat
  wait : Wait
  work : Bool
  tracker : Nat
  grp : Nat
  deriving DecidableEq, Repr

/-- A firing or outer iteration (05 R180-R183, R195): the slot to issue next, the repetition of the inner range, whether its
last operation has issued, and whether a control 0x02 issued in it. -/
structure Firing where
  id : Nat
  sheet : Nat
  number : Nat
  slot : Nat
  rep : Nat
  issued : Bool
  switch : Bool
  ends : Bool
  deriving DecidableEq, Repr

/-- The open generation period (04 R171): the tiles it holds, the last finish that supplied it with the bytes its repetition adds to
ADDR (05 R195). -/
structure GenPeriod where
  tiles : List GenTile
  word : W128
  sheet : Nat
  slot : Nat
  rep : Nat
  number : Nat
  deriving DecidableEq, Repr

/-- The sequencer and fold state (02 R92, R95, 05 R183-R196). `mismatched` says that the two copies have differed since the plot was
loaded (13 R443). -/
structure Seq where
  cur : Nat
  cache : List Host.Cell
  sel : Nat
  visits : List Nat
  fires : List Nat
  inVisit : Nat
  ended : Bool
  firings : List Firing
  target : Option Nat
  switching : Option Nat
  ops : List Flight
  next : Nat
  gen : Option GenPeriod
  halted : Bool
  stepOne : Bool
  mismatched : Bool
  deriving DecidableEq, Repr

/-- FAULT and the trap record (02 R96, R97, 03 R147). -/
structure Trap where
  fault : BitVec 5
  info : W32
  fire : W32
  opndA : W32
  opndB : W32
  addr : W64
  plot : W32
  nan : W32
  deriving DecidableEq, Repr

/-- The seven counters and CNT_WRAP, their latches and CNT_EPOCH (02 R102, R103). -/
structure Counters where
  now : List Nat
  wrap : Nat
  lat : List Nat
  latWrap : Nat
  epoch : Nat
  deriving DecidableEq, Repr

/-- The test block (12 R427). -/
structure TestBlock where
  done : Bool
  selfFail : Bool
  nbFail : BitVec 4
  judged : BitVec 4
  dead : Bool
  links : W16
  sig : W32
  prog : W32
  deriving DecidableEq, Repr

/-- The trace block (16 R529). -/
structure Trace where
  ctl : BitVec 5
  count : W32
  entries : List W64
  deriving DecidableEq, Repr

/-- An edge window (09 R323, 10 R348). -/
structure EdgeWin where
  base : Nat
  limit : Nat
  write : Bool
  deriving DecidableEq, Repr

/-- An edge tracker in use (09 R325): requests not yet completed, and the signal of the move. -/
structure Tracker where
  id : Nat
  left : Nat
  signal : Option Signal
  deriving DecidableEq, Repr

/-- A request to edge memory (09 R324): the edge range, the local offsets of its 64-byte units, the data of a write. -/
structure EdgeReq where
  phys : Nat
  x : Nat
  y : Nat
  tracker : Nat
  write : Bool
  addr : Nat
  len : Nat
  locals : List Nat
  data : Data
  reserved : Bool
  deriving DecidableEq, Repr

/-- The plot router's edge state (08 R290, 09 R323-R332): windows, trackers, and by controller the tickets not in use, the requests that carry one,
the outstanding asks and the share buckets in bytes. A request that waits for a ticket is its move's, in flight. -/
structure EdgePort where
  windows : List EdgeWin
  trackers : List Tracker
  nextTracker : Nat
  tickets : List Nat
  sent : List Nat
  asks : List Bool
  buckets : List Nat
  deriving DecidableEq, Repr

/-- Watchdog and drain counts (05 R198-R207). -/
structure Watch where
  moved : Bool
  count : Nat
  expired : Bool
  drain : Nat
  quiet : Bool
  partialRec : Bool
  deriving DecidableEq, Repr

/-- One physical plot. `restored` says that a record was written into it since its gates were last open (06 R242). -/
structure Plot where
  st : PState
  nanTrap : Bool
  haltReq : Bool
  fence : Bool
  underSurvey : Bool
  writeRefused : Bool
  windowPoison : Bool
  parcel : Nat
  gate : Bool
  swapStaged : Bool
  kept : Bool
  keptDigest : List Byte
  forRestore : Bool
  restored : Bool
  restoredEnded : Bool
  seq : Seq
  trap : Trap
  cnt : Counters
  queues : List Queue
  qview : Nat
  chans : List Channel
  rings : List Ring
  writers : List (Option Writer)
  beacons : List Nat
  group : Group
  slots : List Slot
  legend : List Byte
  loc : List W64
  tile0 : List W128
  tile1 : List W128
  accSel : Nat
  memAddr : Nat
  mem : Mem
  edge : EdgePort
  watch : Watch
  test : TestBlock
  trace : Trace
  pace : Nat × Nat × Nat
  deriving DecidableEq, Repr

/-! ## Reset values (R10, R88-R103) -/

def Queue.reset : Queue := { entries := [], closed := false, owed := 0, pops := 0 }
def Channel.reset : Channel :=
  { dest := 0, rsz := 0, latMsgs := 0, latStalls := 0, latDrops := 0, latWrap := 0, msgs := 0, stalls := 0, drops := 0, wrap := 0 }
def Ring.reset : Ring :=
  { base := 0, rsz := 0, enable := false, head := 0, left := 0, tail := 0, used := 0, msgs := 0, closed := false, pops := 0
    owed := 0, landing := none }
def Slot.reset : Slot := { w0 := 0, w1 := 0, lost := 0, gone := [], held := [] }
def Group.reset : Group :=
  { state := 0, parcel := false, slot := 0, voted := false, last := 0, flags := 0, stores := [], sends := [], tails := []
    firing := 0, overflowed := false, opened := 0, step := 0, used := 0, heldCount := 0, owes := none }
def Seq.reset : Seq :=
  { cur := 0, cache := [], sel := 0, visits := List.replicate 8 0, fires := List.replicate 8 0, inVisit := 0, ended := false
    firings := [], target := none, switching := none, ops := [], next := 0, gen := none, halted := false, stepOne := false
    mismatched := false }
def Trap.reset : Trap := { fault := 0, info := 0, fire := 0, opndA := 0, opndB := 0, addr := 0, plot := 0, nan := 0 }
def Counters.reset : Counters :=
  { now := List.replicate 7 0, wrap := 0, lat := List.replicate 7 0, latWrap := 0, epoch := 0 }
def TestBlock.reset : TestBlock :=
  { done := false, selfFail := false, nbFail := 0, judged := 0, dead := false, links := 0, sig := 0, prog := 0 }
def Trace.reset : Trace := { ctl := 0, count := 0, entries := List.replicate 8 0 }
/-- Buckets are full after load (R290); a plot never loaded has no rule, and starts full too (DESIGN CHOICE, log entry 6). -/
def EdgePort.reset : EdgePort :=
  { windows := [], trackers := [], nextTracker := 0, tickets := List.replicate 24 0, sent := List.replicate 24 0, asks := List.replicate 24 false
    buckets := List.replicate 24 512 }
def Watch.reset : Watch := { moved := false, count := 0, expired := false, drain := 0, quiet := false, partialRec := false }
def Mem.reset : Mem := { bytes := [], syn := [] }

/-- A plot after reset (R10); registers the spec gives no value hold zero (DESIGN CHOICE, log entry 6). -/
def Plot.reset : Plot :=
  { st := .idle, nanTrap := false, haltReq := false, fence := false, underSurvey := false
    writeRefused := false, windowPoison := false, parcel := 0, gate := false, swapStaged := false, kept := false
    keptDigest := [], forRestore := false, restored := false, restoredEnded := false, seq := Seq.reset, trap := Trap.reset
    cnt := Counters.reset, queues := List.replicate 16 Queue.reset, qview := 0, chans := List.replicate 16 Channel.reset
    rings := List.replicate 8 Ring.reset, writers := List.replicate 24 none, beacons := List.replicate 32 0
    group := Group.reset, slots := List.replicate 16 Slot.reset, legend := List.replicate 64 0
    loc := List.replicate 64 0, tile0 := List.replicate 64 0, tile1 := List.replicate 64 0, accSel := 0, memAddr := 0
    mem := Mem.reset, edge := EdgePort.reset, watch := Watch.reset, test := TestBlock.reset, trace := Trace.reset
    pace := (0, 7, 0) }

end Sys2Proof.Machine
end

