-- ==== Sys2Proof/Machine/Cells.lean ====
section
/-! DEFINITION. Sparse memory: lists by rising address with no entry equal to what an unlisted address reads as, the check code
of spec/09_memory.md R311, and the one read and one write of protected memory (R311-R313). -/

namespace Sys2Proof.Machine

/-- Look up a key. -/
def listGet {α : Type} (l : List (Nat × α)) (k : Nat) : Option α :=
  match l with
  | [] => none
  | (a, v) :: r => if a = k then some v else listGet r k

/-- Remove a key. -/
def listDel {α : Type} (k : Nat) : List (Nat × α) → List (Nat × α)
  | [] => []
  | (a, v) :: r => if a = k then listDel k r else (a, v) :: listDel k r

/-- Put a value at a key, keeping the keys rising. -/
def listPut {α : Type} (k : Nat) (x : α) : List (Nat × α) → List (Nat × α)
  | [] => [(k, x)]
  | (a, v) :: r => if a = k then (k, x) :: r else if k < a then (k, x) :: (a, v) :: r else (a, v) :: listPut k x r

/-- Write a value, an entry equal to the default being left out. -/
def cellSet {α : Type} [DecidableEq α] (dflt : α) (k : Nat) (x : α) (l : List (Nat × α)) : List (Nat × α) :=
  if x = dflt then listDel k l else listPut k x l

/-- Read with a default. -/
def cellGet {α : Type} (dflt : α) (l : List (Nat × α)) (k : Nat) : α := (listGet l k).getD dflt

/-- The canonical form: keys rise, and no entry holds the default. -/
def cellsWf {α : Type} [DecidableEq α] (dflt : α) : List (Nat × α) → Bool
  | [] => true
  | [(_, v)] => decide (v ≠ dflt)
  | (a, v) :: (b, w) :: r => decide (v ≠ dflt) && decide (a < b) && cellsWf dflt ((b, w) :: r)

/-- Memory is in canonical form. -/
def Mem.wf (m : Mem) : Bool := cellsWf (0 : Byte) m.bytes && cellsWf (0 : Byte) m.syn

/-- The column bytes of the data bits, bit 0 first (09 R311). -/
def eccColumns : List Nat :=
  [0xF1, 0xF2, 0xF4, 0xF8, 0xC1, 0xC2, 0xC4, 0xC8, 0xA1, 0xA2, 0xA4, 0xA8, 0x61, 0x62, 0x64, 0x68]
  ++ [0x07, 0x37, 0x57, 0x97, 0x0B, 0x3B, 0x5B, 0x9B, 0x0D, 0x3D, 0x5D, 0x9D, 0x0E, 0x3E, 0x5E, 0x9E]
  ++ [0x1F, 0x2F, 0x4F, 0x8F, 0x1C, 0x2C, 0x4C, 0x8C, 0x1A, 0x2A, 0x4A, 0x8A, 0x16, 0x26, 0x46, 0x86]
  ++ [0x70, 0x73, 0x75, 0x79, 0xB0, 0xB3, 0xB5, 0xB9, 0xD0, 0xD3, 0xD5, 0xD9, 0xE0, 0xE3, 0xE5, 0xE9]

def eccCheckGo (d : Nat) : List Nat → Nat → Nat
  | [], _ => 0
  | c :: cs, i => (if d.testBit i then c else 0) ^^^ eccCheckGo d cs (i + 1)

/-- The check byte of clean data (09 R311). -/
def eccCheck (d : W64) : Byte := BitVec.ofNat 8 (eccCheckGo d.toNat eccColumns 0)

def eccFind (s : Nat) : List Nat → Nat → Option Nat
  | [], _ => none
  | c :: cs, i => if c = s then some i else eccFind s cs (i + 1)

/-- What a syndrome says (09 R311). -/
inductive EccVerdict where
  | clean
  | poisoned
  | dataBit (i : Nat)
  | checkBit
  | uncorrectable
  deriving DecidableEq, Repr

def eccDecode (s : Byte) : EccVerdict :=
  if s = 0 then .clean
  else if s = 0xFF then .poisoned
  else match eccFind s.toNat eccColumns 0 with
    | some i => .dataBit i
    | none => if [0x01, 0x02, 0x04, 0x08, 0x10, 0x20, 0x40, 0x80].contains s.toNat then .checkBit else .uncorrectable

/-- The stored data bits of word w. -/
def Mem.raw (m : Mem) (w : Nat) : W64 :=
  BitVec.ofNat 64 (leNat ((List.range 8).map fun i => cellGet 0 m.bytes (8 * w + i)))

/-- Store data bits of word w, with a syndrome. -/
def Mem.put (m : Mem) (w : Nat) (d : W64) (s : Byte) : Mem :=
  { bytes := (List.range 8).foldl (fun l i => cellSet 0 (8 * w + i) (BitVec.ofNat 8 (d.toNat >>> (8 * i))) l) m.bytes
    syn := cellSet 0 w s m.syn }

/-- One read of a word (09 R311, R313): the memory after, the data, its poison, errors corrected and found uncorrectable. -/
structure WordRead where
  mem : Mem
  data : W64
  poison : Bool
  corrected : Nat
  uncorrectable : Nat
  deriving DecidableEq, Repr

def Mem.readWord (m : Mem) (w : Nat) : WordRead :=
  let d := m.raw w
  match eccDecode (cellGet 0 m.syn w) with
  | .clean => ⟨m, d, false, 0, 0⟩
  | .poisoned => ⟨m, d, true, 0, 0⟩
  | .dataBit i => let d' := d ^^^ (1#64 <<< i); ⟨m.put w d' 0, d', false, 1, 0⟩
  | .checkBit => ⟨m.put w d 0, d, false, 1, 0⟩
  | .uncorrectable => ⟨m.put w d 0xFF, d, true, 0, 1⟩

/-- The bytes of a word, each with the word's poison. -/
def wordData (d : W64) (poison : Bool) : Data := (leBytes 8 d.toNat).map fun b => (b, poison)

/-- What a memory access gave. -/
structure MemRead where
  mem : Mem
  data : Data
  corrected : Nat
  uncorrectable : Nat
  deriving DecidableEq, Repr

/-- Read words w, w + 1, ...: k of them. -/
def Mem.readWords (m : Mem) (w : Nat) : Nat → MemRead
  | 0 => ⟨m, [], 0, 0⟩
  | k + 1 =>
    let r := m.readWord w
    let s := r.mem.readWords (w + 1) k
    ⟨s.mem, wordData r.data r.poison ++ s.data, r.corrected + s.corrected, r.uncorrectable + s.uncorrectable⟩

/-- Read n bytes from address a. -/
def Mem.read (m : Mem) (a n : Nat) : MemRead :=
  if n = 0 then ⟨m, [], 0, 0⟩
  else
    let w := a / 8
    let r := m.readWords w ((a + n - 1) / 8 - w + 1)
    { r with data := (r.data.drop (a % 8)).take n }

/-- One write of up to 8 bytes inside a word (09 R313): a full word takes the data's poison; a part of a word is read, merged and
stays poisoned when either side is. -/
def Mem.writeWord (m : Mem) (w off : Nat) (d : Data) : MemRead :=
  let dp := d.any (·.2)
  if d.length = 8 ∧ off = 0 then
    ⟨m.put w (BitVec.ofNat 64 (leNat (d.map (·.1)))) (if dp then 0xFF else 0), [], 0, 0⟩
  else
    let r := m.readWord w
    let old := leBytes 8 r.data.toNat
    let new := old.take off ++ d.map (·.1) ++ old.drop (off + d.length)
    ⟨r.mem.put w (BitVec.ofNat 64 (leNat new)) (if dp || r.poison then 0xFF else 0), [], r.corrected, r.uncorrectable⟩

/-- Write bytes from address a on; the fuel is at least the number of words touched. -/
def Mem.writeGo (m : Mem) (a : Nat) (d : Data) : Nat → MemRead
  | 0 => ⟨m, [], 0, 0⟩
  | k + 1 =>
    if d.isEmpty then ⟨m, [], 0, 0⟩
    else
      let off := a % 8
      let n := 8 - off
      let r := m.writeWord (a / 8) off (d.take n)
      let s := r.mem.writeGo (a + n) (d.drop n) k
      ⟨s.mem, [], r.corrected + s.corrected, r.uncorrectable + s.uncorrectable⟩

def Mem.write (m : Mem) (a : Nat) (d : Data) : MemRead := m.writeGo a d (d.length / 8 + 2)

/-- Upset stored bits of a word (09 R311): the syndrome changes by the flipped check bits and the columns of the flipped data. -/
def Mem.upset (m : Mem) (w : Nat) (data : W64) (check : Byte) : Mem :=
  m.put w (m.raw w ^^^ data) (cellGet 0 m.syn w ^^^ check ^^^ eccCheck data)

/-- Clear [a, a + n) to zero with valid check bits, whole words (09 R310, 10 R363). -/
def Mem.clear (m : Mem) (a n : Nat) : Mem :=
  { bytes := m.bytes.filter fun c => decide (c.1 < a ∨ a + n ≤ c.1)
    syn := m.syn.filter fun c => decide (8 * c.1 < a ∨ a + n ≤ 8 * c.1) }

/-- Bytes of a plain byte list (no check code): the sheet cache, host memory. -/
def cellsRead (l : List Host.Cell) (a n : Nat) : List Byte := (List.range n).map fun i => cellGet 0 l (a + i)

def cellsWrite (l : List Host.Cell) (a : Nat) (d : List Byte) : List Host.Cell :=
  (d.foldl (fun (p : List Host.Cell × Nat) b => (cellSet 0 p.2 b p.1, p.2 + 1)) (l, a)).1

/-- Clean bytes as moving data. -/
def cleanData (l : List Byte) : Data := l.map fun b => (b, false)

/-- Poison of whole 64-bit words: a word any of whose bytes carries poison is poisoned (09 R314). -/
def poisonWords : Nat → Data → Data
  | 0, _ => []
  | n + 1, d =>
    let w := d.take 8
    let p := w.any (·.2)
    w.map (fun b => (b.1, p)) ++ poisonWords n (d.drop 8)

def Data.settle (d : Data) : Data := poisonWords ((d.length + 7) / 8) d

end Sys2Proof.Machine
end

