-- ==== Sys2Proof/Machine/Crypto.lean ====
section
/-! DEFINITION. The codes and digests the spec names: SHA-512 and RSASSA-PKCS1-v1_5 (10 R346, RFC 8017; the constants are the
standards', log entry 5), CRC-32C (05 R211), CRC-64 ECMA-182 (11 R378) and the Reed-Solomon code of 11 R379. -/

namespace Sys2Proof.Machine

/-! ## SHA-512 -/

def shaK0 : List W64 :=
  [0x428A2F98D728AE22, 0x7137449123EF65CD, 0xB5C0FBCFEC4D3B2F, 0xE9B5DBA58189DBBC,
   0x3956C25BF348B538, 0x59F111F1B605D019, 0x923F82A4AF194F9B, 0xAB1C5ED5DA6D8118,
   0xD807AA98A3030242, 0x12835B0145706FBE, 0x243185BE4EE4B28C, 0x550C7DC3D5FFB4E2,
   0x72BE5D74F27B896F, 0x80DEB1FE3B1696B1, 0x9BDC06A725C71235, 0xC19BF174CF692694,
   0xE49B69C19EF14AD2, 0xEFBE4786384F25E3, 0x0FC19DC68B8CD5B5, 0x240CA1CC77AC9C65]
def shaK1 : List W64 :=
  [0x2DE92C6F592B0275, 0x4A7484AA6EA6E483, 0x5CB0A9DCBD41FBD4, 0x76F988DA831153B5,
   0x983E5152EE66DFAB, 0xA831C66D2DB43210, 0xB00327C898FB213F, 0xBF597FC7BEEF0EE4,
   0xC6E00BF33DA88FC2, 0xD5A79147930AA725, 0x06CA6351E003826F, 0x142929670A0E6E70,
   0x27B70A8546D22FFC, 0x2E1B21385C26C926, 0x4D2C6DFC5AC42AED, 0x53380D139D95B3DF,
   0x650A73548BAF63DE, 0x766A0ABB3C77B2A8, 0x81C2C92E47EDAEE6, 0x92722C851482353B]
def shaK2 : List W64 :=
  [0xA2BFE8A14CF10364, 0xA81A664BBC423001, 0xC24B8B70D0F89791, 0xC76C51A30654BE30,
   0xD192E819D6EF5218, 0xD69906245565A910, 0xF40E35855771202A, 0x106AA07032BBD1B8,
   0x19A4C116B8D2D0C8, 0x1E376C085141AB53, 0x2748774CDF8EEB99, 0x34B0BCB5E19B48A8,
   0x391C0CB3C5C95A63, 0x4ED8AA4AE3418ACB, 0x5B9CCA4F7763E373, 0x682E6FF3D6B2B8A3,
   0x748F82EE5DEFB2FC, 0x78A5636F43172F60, 0x84C87814A1F0AB72, 0x8CC702081A6439EC]
def shaK3 : List W64 :=
  [0x90BEFFFA23631E28, 0xA4506CEBDE82BDE9, 0xBEF9A3F7B2C67915, 0xC67178F2E372532B,
   0xCA273ECEEA26619C, 0xD186B8C721C0C207, 0xEADA7DD6CDE0EB1E, 0xF57D4F7FEE6ED178,
   0x06F067AA72176FBA, 0x0A637DC5A2C898A6, 0x113F9804BEF90DAE, 0x1B710B35131C471B,
   0x28DB77F523047D84, 0x32CAAB7B40C72493, 0x3C9EBE0A15C9BEBC, 0x431D67C49C100D4C,
   0x4CC5D4BECB3E42B6, 0x597F299CFC657E2A, 0x5FCB6FAB3AD6FAEC, 0x6C44198C4A475817]
def shaK : List W64 := shaK0 ++ shaK1 ++ shaK2 ++ shaK3
def shaInit : List W64 :=
  [0x6A09E667F3BCC908, 0xBB67AE8584CAA73B, 0x3C6EF372FE94F82B, 0xA54FF53A5F1D36F1,
   0x510E527FADE682D1, 0x9B05688C2B3E6C1F, 0x1F83D9ABFB41BD6B, 0x5BE0CD19137E2179]

/-- The working variables a to h. -/
structure Sha where
  a : W64
  b : W64
  c : W64
  d : W64
  e : W64
  f : W64
  g : W64
  h : W64
  deriving DecidableEq, Repr

def Sha.ofList (l : List W64) : Sha :=
  let w (i : Nat) : W64 := (l[i]?).getD 0
  ⟨w 0, w 1, w 2, w 3, w 4, w 5, w 6, w 7⟩

def Sha.add (x y : Sha) : Sha := ⟨x.a + y.a, x.b + y.b, x.c + y.c, x.d + y.d, x.e + y.e, x.f + y.f, x.g + y.g, x.h + y.h⟩

def Sha.round (s : Sha) (k w : W64) : Sha :=
  let s1 := s.e.rotateRight 14 ^^^ s.e.rotateRight 18 ^^^ s.e.rotateRight 41
  let ch := (s.e &&& s.f) ^^^ (~~~s.e &&& s.g)
  let t1 := s.h + s1 + ch + k + w
  let s0 := s.a.rotateRight 28 ^^^ s.a.rotateRight 34 ^^^ s.a.rotateRight 39
  let maj := (s.a &&& s.b) ^^^ (s.a &&& s.c) ^^^ (s.b &&& s.c)
  ⟨t1 + (s0 + maj), s.a, s.b, s.c, s.d + t1, s.e, s.f, s.g⟩

/-- One block: the last sixteen schedule words move along (oldest first). -/
def shaRounds : List W64 → List W64 → Sha → Sha
  | [], _, s => s
  | k :: ks, ws, s =>
    match ws with
    | [] => s
    | w :: rest =>
      let x (i : Nat) : W64 := (ws[i]?).getD 0
      let s0 := (x 1).rotateRight 1 ^^^ (x 1).rotateRight 8 ^^^ (x 1) >>> 7
      let s1 := (x 14).rotateRight 19 ^^^ (x 14).rotateRight 61 ^^^ (x 14) >>> 6
      shaRounds ks (rest ++ [w + s0 + x 9 + s1]) (s.round k w)

def beNat (l : List Byte) : Nat := l.foldl (fun n b => n * 256 + b.toNat) 0
def beBytes (n v : Nat) : List Byte := (leBytes n v).reverse

def shaBlock (s : Sha) (blk : List Byte) : Sha :=
  let ws := (List.range 16).map fun i => BitVec.ofNat 64 (beNat ((blk.drop (8 * i)).take 8))
  s.add (shaRounds shaK ws s)

def shaBlocks : Nat → List Byte → Sha → Sha
  | 0, _, s => s
  | n + 1, m, s => shaBlocks n (m.drop 128) (shaBlock s (m.take 128))

/-- SHA-512 of a byte string. -/
def sha512 (m : List Byte) : List Byte :=
  let n := m.length
  let pad := (239 - n % 128) % 128
  let full := m ++ [0x80] ++ List.replicate pad 0 ++ beBytes 16 (8 * n)
  let s := shaBlocks (full.length / 128) full (Sha.ofList shaInit)
  [s.a, s.b, s.c, s.d, s.e, s.f, s.g, s.h].flatMap fun w => beBytes 8 w.toNat

/-! ## RSASSA-PKCS1-v1_5 -/

/-- m to the 65,537 (16 R517). -/
def rsaPublic (n m : Nat) : Nat :=
  let sq (x : Nat) : Nat := x * x % n
  sq (sq (sq (sq (sq (sq (sq (sq (sq (sq (sq (sq (sq (sq (sq (sq m))))))))))))))) * m % n

/-- The DigestInfo of SHA-512. -/
def sha512Info : List Byte :=
  [0x30, 0x51, 0x30, 0x0D, 0x06, 0x09, 0x60, 0x86, 0x48, 0x01, 0x65, 0x03, 0x04, 0x02, 0x03, 0x05, 0x00, 0x04, 0x40]

def emsa (digest : List Byte) : List Byte :=
  [0x00, 0x01] ++ List.replicate 426 0xFF ++ [0x00] ++ sha512Info ++ digest

/-- b to the e modulo n, for an e of so many bits. -/
def powMod (n b : Nat) : Nat → Nat → Nat
  | 0, _ => 1 % n
  | k + 1, e =>
    let r := powMod n (b * b % n) k (e / 2)
    if e % 2 = 1 then r * b % n else r

/-- The 512-byte signature of a message with a private exponent under a little-endian modulus (RFC 8017, RSASSA-PKCS1-v1_5). -/
def rsaSign (modulus : List Byte) (d : Nat) (msg : List Byte) : List Byte :=
  beBytes 512 (powMod (leNat modulus) (beNat (emsa (sha512 msg))) 4096 d)

/-- A 512-byte signature of a message under a little-endian modulus (R522); the signature itself is a big-endian octet string, as
RFC 8017 has it (PRESUMED, log entry 5). -/
def rsaVerify (modulus sig msg : List Byte) : Bool :=
  let n := leNat modulus
  let s := beNat sig
  decide (modulus.length = 512 ∧ sig.length = 512 ∧ 0 < n ∧ s < n) && rsaPublic n s == beNat (emsa (sha512 msg))

/-! ## CRC-32C and CRC-64 -/

/-- One byte of a reflected CRC, eight bits. -/
def crcByte (poly : Nat) (crc : Nat) (b : Byte) : Nat :=
  (List.range 8).foldl (fun c _ => if c.testBit 0 then (c >>> 1) ^^^ poly else c >>> 1) (crc ^^^ b.toNat)

/-- CRC-32C (Castagnoli, reflected, all ones in and out; the standard's parameters, log entry 5). -/
def crc32c (l : List Byte) : Nat := l.foldl (crcByte 0x82F63B78) 0xFFFFFFFF ^^^ 0xFFFFFFFF

/-- CRC-64 with the ECMA-182 polynomial, least significant bit first (11 R378). -/
def crc64 (l : List Byte) : Nat := l.foldl (crcByte 0xC96C5795D7870F42) 0xFFFFFFFFFFFFFFFF ^^^ 0xFFFFFFFFFFFFFFFF

/-! ## Reed-Solomon (128,120) over GF(2^8) (11 R379) -/

/-- Multiply by 0x02 under x^8 + x^4 + x^3 + x^2 + 1. -/
def gfDouble (a : Nat) : Nat := if a < 128 then 2 * a else (2 * a - 256) ^^^ 0x1D

def gfMulGo : Nat → Nat → Nat → Nat
  | 0, _, _ => 0
  | n + 1, a, b => (if b.testBit 0 then a else 0) ^^^ gfMulGo n (gfDouble a) (b >>> 1)
def gfMul (a b : Nat) : Nat := gfMulGo 8 a b

def gfPow (a : Nat) : Nat → Nat
  | 0 => 1
  | n + 1 => gfMul a (gfPow a n)

/-- The inverse, a to the 254. -/
def gfInv (a : Nat) : Nat :=
  let a2 := gfMul a a
  let a4 := gfMul a2 a2
  let a8 := gfMul a4 a4
  let a16 := gfMul a8 a8
  let a32 := gfMul a16 a16
  let a64 := gfMul a32 a32
  let a128 := gfMul a64 a64
  gfMul a2 (gfMul a4 (gfMul a8 (gfMul a16 (gfMul a32 (gfMul a64 a128)))))

/-- Evaluate a polynomial, highest coefficient first. -/
def gfEval (p : List Nat) (x : Nat) : Nat := p.foldl (fun acc c => gfMul acc x ^^^ c) 0

/-- The generator, highest coefficient first. -/
def rsGenerator : List Nat :=
  (List.range 8).foldl (fun g i =>
    let r := gfPow 2 i
    let g1 := g ++ [0]
    let g2 := 0 :: g.map (gfMul r)
    (g1.zip g2).map fun ab => ab.1 ^^^ ab.2) [1]

/-- Parity of data symbols: the remainder of the data times x^8. -/
def rsParity (data : List Nat) : List Nat :=
  let g := rsGenerator.drop 1
  data.foldl (fun rem d =>
    let f := d ^^^ (rem.headD 0)
    let sh := rem.drop 1 ++ [0]
    (sh.zip g).map fun rg => rg.1 ^^^ gfMul f rg.2) (List.replicate 8 0)

def rsSyndromes (word : List Nat) : List Nat := (List.range 8).map fun i => gfEval word (gfPow 2 i)

/-- Berlekamp-Massey: the error locator, lowest coefficient first. -/
structure Bm where
  c : List Nat
  b : List Nat
  l : Nat
  m : Nat
  bb : Nat
  deriving DecidableEq, Repr

def polyAdd : List Nat → List Nat → List Nat
  | [], q => q
  | p, [] => p
  | a :: p, b :: q => (a ^^^ b) :: polyAdd p q

def bmStep (syn : List Nat) (s : Bm) (n : Nat) : Bm :=
  let d := (List.range (s.l + 1)).foldl (fun acc i => acc ^^^ gfMul ((s.c[i]?).getD 0) ((syn[n - i]?).getD 0)) 0
  if d = 0 then { s with m := s.m + 1 }
  else
    let f := gfMul d (gfInv s.bb)
    let c' := polyAdd s.c (List.replicate s.m 0 ++ s.b.map (gfMul f))
    if 2 * s.l ≤ n then { c := c', b := s.c, l := n + 1 - s.l, m := 1, bb := d }
    else { s with c := c', m := s.m + 1 }

/-- Solve for the error values at known places by elimination: rows are the first equations of the syndromes. -/
def gfSolve : Nat → List (List Nat) → List Nat
  | 0, _ => []
  | k + 1, rows =>
    match rows.find? fun r => r.headD 0 != 0 with
    | none => List.replicate (k + 1) 0
    | some piv =>
      let inv := gfInv (piv.headD 1)
      let piv := piv.map (gfMul inv)
      let others := (rows.filter fun r => r.map (gfMul inv) != piv).map fun r =>
        ((r.zip piv).map fun ab => ab.1 ^^^ gfMul (r.headD 0) ab.2).drop 1
      let tail := gfSolve k others
      let rhs := (piv.getLast?).getD 0
      let x := ((piv.drop 1).zip tail).foldl (fun acc ab => acc ^^^ gfMul ab.1 ab.2) rhs
      x :: tail

/-- Correct up to 4 symbols of a code word (highest coefficient first); the Bool says that a correction was made. A word beyond
that is left as received, for the CRC to catch. -/
def rsCorrect (word : List Nat) : List Nat × Bool :=
  let syn := rsSyndromes word
  if syn.all (· == 0) then (word, false)
  else
    let bm := (List.range 8).foldl (bmStep syn) { c := [1], b := [1], l := 0, m := 1, bb := 1 }
    let n := word.length
    let places := (List.range n).filter fun i => gfEval bm.c.reverse (gfInv (gfPow 2 (n - 1 - i))) == 0
    if 4 < bm.l ∨ places.length ≠ bm.l then (word, false)
    else
      let rows := (List.range bm.l).map fun j =>
        (places.map fun i => gfPow (gfPow 2 (n - 1 - i)) j) ++ [(syn[j]?).getD 0]
      let vals := gfSolve bm.l rows
      let fixed := (word.zipIdx).map fun wi =>
        match places.findIdx? (· == wi.2) with
        | some k => wi.1 ^^^ (vals[k]?).getD 0
        | none => wi.1
      if (rsSyndromes fixed).all (· == 0) then (fixed, true) else (word, false)

/-- Every other element, from the first. -/
def evens {α : Type} : List α → List α
  | [] => []
  | [a] => [a]
  | a :: _ :: r => a :: evens r

def interleave {α : Type} : List α → List α → List α
  | [], q => q
  | p, [] => p
  | a :: p, b :: q => a :: b :: interleave p q

/-- FEC parity of the 240 bytes before it, both code words interleaved. -/
def fecParity (l : List Byte) : List Byte :=
  let ns := l.map (·.toNat)
  (interleave (rsParity (evens ns)) (rsParity (evens (ns.drop 1)))).map fun n => BitVec.ofNat 8 n

/-- A received flit after correction, and whether anything was corrected. -/
def fecCorrect (l : List Byte) : List Byte × Bool :=
  let ns := l.map (·.toNat)
  let (e, ce) := rsCorrect (evens ns)
  let (o, co) := rsCorrect (evens (ns.drop 1))
  ((interleave e o).map fun n => BitVec.ofNat 8 n, ce || co)

end Sys2Proof.Machine
end

