-- ==== Sys2Proof/Config.lean ====
section
/-! DEFINITION. What the spec leaves open, as constants without a value: no statement can rest on one of them. The argument
of a free value is a place in the supply that State.freeCtr counts through (log entry 1). -/

namespace Sys2Proof.Config

/-- The last 8 bytes of a 32-byte unit of FP6 output (04 R169 gives 24 bytes). -/
opaque unitPad : Nat → W64

/-- The addend of an element of vector FMA: the spec names two operands and no third (02 R62, R555; log entry 11). -/
opaque fmaAddend : Nat → W64

/-- The encoding of true and false in an element of a compare's mask, by format code (02 R62 gives none; log entry 11). -/
opaque maskElement : Nat → Bool → W64

/-- Which element a select takes, one bit a lane: the spec names no mask operand (02 R62, R555; log entry 11). -/
opaque selectMask : Nat → W16

/-- DBG_NONCE: 64 random bits, drawn anew by the security engine (16 R522). -/
opaque nonce : Nat → W64

/-- The value that IDCODE shifts out (16 R530 names the instruction and gives no value). -/
opaque idcode : W32

/-- Cycles that requests of a plot's operations wait for a bank's grant within one reference cycle (02 R46, R47), by place in the supply and
plot: which requests meet at a bank in one cycle is timing that the model does not follow (log entry 70). -/
opaque bankWait : Nat → Nat → Nat

/-- The pattern entries that a rerun adds to a queue that holds too few (13 R444 gives no bytes): 64-bit words, by place (log entry 71). -/
opaque pattern : Nat → W64

/-- TEST_SIG of a plot after triangulation and the identity of triangulation's test program (12 R427 gives no values). -/
opaque triangSig : Nat → W32
opaque triangProg : W32

/-- A random or unstated 64-bit value of any other kind, named where it is used. -/
opaque word : Nat → W64

/-- Moduli, little-endian, that the spec names and gives no value for: Ryulal's firmware key (its digest is in ROM, 16 R519),
root key (R515) and debug key (R527). -/
opaque firmwareKey : List Byte
opaque rootKey : List Byte
opaque debugKey : List Byte

/-- The identity signature over a report (16 R517, R524): the private half is fused and readable by nobody. -/
opaque identityExponent : Nat

/-- The device that holds the link node of a spanning tree, and the member devices (07 R254, R259): no field of an atlas or slot
names them (log entry 20). -/
opaque treeOwner : Nat → Nat
opaque treeMembers : Nat → List Nat

end Sys2Proof.Config
end

