-- ==== Sys2Proof/Machine/Geometry.lean ====
section
/-! DEFINITION. The geometry of the module (spec/01_wafer_stack.md, spec/08_networks.md R284-R289, spec/09_memory.md R317):
fields, reaches, projection, hop counts, attachments, transfer times, the edge interleave. A physical plot is numbered
1248·y + u. -/

namespace Sys2Proof.Machine

/-- The field of a logical plot (R18, R19). -/
def fieldOf (x y : Nat) : Nat := y / 128 * 8 + x / 150

/-- The field of a physical plot. -/
def fieldOfPhys (phys : Nat) : Nat := phys / 1248 / 128 * 8 + phys % 1248 / 156

/-- The reach of a logical plot, numbered (48 fields × 128 rows × 6): row, then field column, then reach (R20, R22). -/
def reachOf (x y : Nat) : Nat := y * 48 + x / 25

/-- The reach of a physical plot. -/
def reachOfPhys (phys : Nat) : Nat := phys / 1248 * 48 + phys % 1248 / 26

/-- Projection values, a reach that is not listed having q = 25 (R21). -/
abbrev Projection := List (Nat × Nat)

/-- The physical place of a logical plot (R21, R22). -/
def physOf (proj : Projection) (x y : Nat) : Nat :=
  let i := x % 25
  let q := cellGet 25 proj (reachOf x y)
  1248 * y + 26 * (x / 25) + (if i < q then i else i + 1)

/-- The logical plot a physical place carries, none at the projection value (R21). -/
def logicalOf (proj : Projection) (phys : Nat) : Option XY :=
  let u := phys % 1248
  let p := u % 26
  let q := cellGet 25 proj (reachOfPhys phys)
  if p = q then none
  else some ⟨25 * (u / 26) + (if p < q then p else p - 1), phys / 1248⟩

/-- The logical neighbour in a direction, 0 N, 1 E, 2 S, 3 W, inside the same field (R27, R54). -/
def neighbourXY (x y dir : Nat) : Option XY :=
  let n : Option XY :=
    match dir with
    | 0 => if y = 0 then none else some ⟨x, y - 1⟩
    | 1 => if x = 1199 then none else some ⟨x + 1, y⟩
    | 2 => if y = 767 then none else some ⟨x, y + 1⟩
    | _ => if x = 0 then none else some ⟨x - 1, y⟩
  n.filter fun q => fieldOf q.x q.y == fieldOf x y

/-- PLOT_PHYS of a physical place (R91). -/
def plotPhysReg (phys : Nat) : W32 :=
  let u := phys % 1248
  BitVec.ofNat 32 (u + (phys / 1248) * 2 ^ 11 + (u % 156 / 26) * 2 ^ 21 + (u % 26) * 2 ^ 24)

/-- Distance of two coordinates. -/
def absDiff (a b : Nat) : Nat := (a - b) + (b - a)

/-- Hops of R284: mesh and express. -/
def hopsOf (a b : XY) : Nat × Nat :=
  let dx := absDiff a.x b.x
  let dy := absDiff a.y b.y
  (dx % 16 + dy % 16, dx / 16 + dy / 16)

def hopCount (a b : XY) : Nat := (hopsOf a b).1 + (hopsOf a b).2

/-- Field crossings of R284's route. -/
def crossings (a b : XY) : Nat := absDiff (a.x / 150) (b.x / 150) + absDiff (a.y / 128) (b.y / 128)

/-- Flits of a message (R288). -/
def flitsOf (len : Nat) : Nat := (len + 31) / 32

/-- Stratus times in network cycles (R288): unloaded, and the bound at w cycles a hop. -/
def stratusUnloaded (a b : XY) (len : Nat) : Nat :=
  2 + 2 * (hopsOf a b).1 + 3 * (hopsOf a b).2 + 2 * crossings a b + (flitsOf len - 1)
def stratusBound (a b : XY) (len w : Nat) : Nat :=
  2 + 2 * crossings a b + (hopCount a b + flitsOf len - 1) * w

/-- The w of R287 by virtual channel. -/
def vcWait : Nat → Nat
  | 0 => 4
  | 1 => 10
  | _ => 8

/-- Nimbus times (R306). -/
def nimbusUnloaded (a b : XY) : Nat := 2 + hopCount a b + 2 * crossings a b
def nimbusBound (a b : XY) : Nat := 2 + 2 * crossings a b + 5 * hopCount a b

/-- An edge of the wafer. -/
inductive Side where
  | north | east | south | west
  deriving DecidableEq, Repr

/-- The edge and the field a stack's controller stands beside (R30). -/
def emcSide (c : Nat) : Side := if c < 8 then .north else if c < 16 then .south else if c < 20 then .west else .east
def emcField (c : Nat) : Nat :=
  if c < 8 then c
  else if c < 16 then 5 * 8 + (c - 8)
  else if c < 20 then (c - 15) * 8
  else (c - 19) * 8 + 7

/-- The edge of a port (R31). -/
def portSide (p : Nat) : Side := if p < 4 then .north else if p < 8 then .east else if p < 12 then .south else .west

/-- The partner field of R561. -/
def partnerField (s : Side) (f : Nat) : Nat :=
  let fx := f % 8
  let fy := f / 8
  match s with
  | .north | .south => fy * 8 + (fx ^^^ 1)
  | .east | .west => (fy ^^^ 1) * 8 + fx

/-- Attachment j of a set at a field and side (R561). -/
def attachment (s : Side) (f j : Nat) : XY :=
  let x0 := 150 * (f % 8)
  let y0 := 128 * (f / 8)
  match s with
  | .north => ⟨x0 + (2 * j + 1) * 150 / 128, y0⟩
  | .south => ⟨x0 + (2 * j + 1) * 150 / 128, y0 + 127⟩
  | .west => ⟨x0, y0 + (2 * j + 1) * 128 / 128⟩
  | .east => ⟨x0 + 149, y0 + (2 * j + 1) * 128 / 128⟩

/-- The nearest attachment of a set, ties to the lower j (R561). -/
def nearestAttachment (s : Side) (f : Nat) (p : XY) : XY :=
  (((List.range 64).map (attachment s f)).foldl (fun (best : Option (XY × Nat)) a =>
    let h := hopCount a p
    match best with
    | none => some (a, h)
    | some b => if h < b.2 then some (a, h) else some b) none).elim ⟨0, 0⟩ (·.1)

/-- Whether an edge address is present (R316). -/
def edgePresent (a : Nat) : Bool := decide (a < 0x6000000000)

def edgeFold (g : Nat) : Nat → Nat
  | 0 => 0
  | k + 1 => (g >>> (3 * (k + 1))) % 8 ^^^ edgeFold g k

/-- The controller and the byte address in its stack (R317). -/
def edgePlace (a : Nat) : Nat × Nat :=
  let g := a / 4096
  let w := g / 8
  (8 * (w % 3) + (g % 8 ^^^ edgeFold g 8), w / 3 * 4096 + a % 4096)

/-- Pseudo-channel of a local byte address (R319). -/
def pseudoChannel (b : Nat) : Nat := b / 256 % 32 ^^^ b / 8192 % 32

/-- A global plot address as a number (R37). -/
def globalAddr (dev x y off : Nat) : Nat := dev * 2 ^ 39 + x * 2 ^ 28 + y * 2 ^ 18 + off

/-- Device ID of torus coordinates (R38). -/
def deviceId (tx ty tz : Nat) : Nat := tz * 64 + ty * 8 + tx

/-- Bank of a local offset (R45). -/
def bankOf (off : Nat) : Nat := if off < 0xC000 then off / 64 % 16 else off / 64 % 32

/-- The adjacent physical plot, 0 N, 1 E, 2 S, 3 W, in the same field. -/
def physNear (ph d : Nat) : Option Nat :=
  let q := match d with
    | 0 => if ph < 1248 then none else some (ph - 1248)
    | 1 => if ph % 1248 = 1247 then none else some (ph + 1)
    | 2 => if 958464 ≤ ph + 1248 then none else some (ph + 1248)
    | _ => if ph % 1248 = 0 then none else some (ph - 1)
  q.filter fun q => fieldOfPhys q == fieldOfPhys ph

end Sys2Proof.Machine
end

