-- ==== Sys2Proof/Machine/NetState.lean ====
section
/-! DEFINITION. Packets in flight on Stratus (spec/08_networks.md R281): what each virtual channel carries. Nimbus packets are
`TallyPkt` of PlotState.lean. -/

namespace Sys2Proof.Machine

/-- An end of a Stratus transfer on this module, or a device reached over the Wenga links. -/
inductive Place where
  | plot (x y : Nat)
  | emc (c : Nat)
  | port (p : Nat)
  | away (dev : Nat)
  deriving DecidableEq, Repr

/-- What a packet carries (R281, R217, 09 R324-R332, 10 R359). -/
inductive PktBody where
  | msg (m : Message)
  | grant (w : Writer) (amount : Nat)
  | close (w : Writer)
  | drop (w : Writer)
  | image (parcel : Nat) (x y off : Nat) (data : Data)
  | ask (phys c : Nat) (reserved : Bool)
  | ticket (c : Nat)
  | request (c : Nat) (r : EdgeReq)
  | completion (c : Nat) (r : EdgeReq) (keep : Bool)
  | giveBack (phys c : Nat)
  deriving DecidableEq, Repr

/-- An end of a field's side that a route crosses: the field, the side it leaves by (0 N, 1 E, 2 S, 3 W), the field it enters; the same field
twice where the crossing is to or from the rim. -/
abbrev Hop := Nat × Nat × Nat

/-- A packet on Stratus, with its source, destination and virtual channel. -/
structure Packet where
  src : Place
  dst : Place
  vc : Nat
  body : PktBody
  deriving DecidableEq, Repr

/-- A packet in flight, with the field and rim crossings of the route it took when it left its source (08 R286, R295). -/
structure Sent where
  pkt : Packet
  way : List Hop
  deriving DecidableEq, Repr

end Sys2Proof.Machine
end

