-- ==== Sys2Proof/Machine/Sheets.lean ====
section
/-! DEFINITION. Sheets, operations and their fields (spec/02_plots.md R67-R81, R554-R556, spec/05_firing_and_folding.md R187-R195):
parsing, the illegal operations, and the check of one sheet that a load and R557 make. -/

namespace Sys2Proof.Machine

/-! ## Operation words (R76) -/

def opClass (w : W128) : Nat := bitsOf w.toNat 3 0
def opCode (w : W128) : Nat := bitsOf w.toNat 9 4
def opFmt (w : W128) : Nat := bitsOf w.toNat 15 10
def opSrcA (w : W128) : Nat := bitsOf w.toNat 23 16
def opSrcB (w : W128) : Nat := bitsOf w.toNat 31 24
def opDst (w : W128) : Nat := bitsOf w.toNat 39 32
def opIntWrap (w : W128) : Bool := w.getLsbD 40
def opFpInf (w : W128) : Bool := w.getLsbD 41
def opCount (w : W128) : Nat := bitsOf w.toNat 63 48
def opAddr (w : W128) : Nat := bitsOf w.toNat 81 64
def opStride (w : W128) : Nat := bitsOf w.toNat 95 84
def opParam (w : W128) : Nat := bitsOf w.toNat 127 96

/-- An operand specifier's KIND and INDEX (R77). -/
def specKind (s : Nat) : Nat := s / 32
def specIndex (s : Nat) : Nat := s % 32

/-- Operand kinds by R77. -/
def kNone : Nat := 0
def kQueue : Nat := 1
def kRing : Nat := 2
def kLoc : Nat := 3
def kMem : Nat := 4
def kNbr : Nat := 5
def kTile : Nat := 6
def kChan : Nat := 7

/-- Whether a specifier's INDEX is in range for its KIND, as a source or as a destination (R77). -/
def specInRange (dst : Bool) (s : Nat) : Bool :=
  let i := specIndex s
  match specKind s with
  | 0 => i == 0
  | 1 => decide (i < 16)
  | 2 => decide (i < 8)
  | 3 => decide (i < 8)
  | 4 => i == 0
  | 5 => decide (i < 4)
  | 6 => decide (i < 3)
  | _ => if dst then decide (i < 16) else i == 0

/-- Whether a specifier has one of the kinds, in range (R555, R81). -/
def specOk (dst : Bool) (s : Nat) (kinds : List Nat) : Bool := kinds.contains (specKind s) && specInRange dst s

/-- The tile a specifier names in a firing (R77). -/
def tileIndex (s number : Nat) : Nat :=
  match specIndex s with
  | 0 => 0
  | 1 => 1
  | _ => number % 2

/-- Tensor PARAM (R80). -/
def tpAnchor (p : Nat) : Int := sextNat 16 (bitsOf p 15 0)
def tpABlock (p : Nat) : Nat := bitsOf p 18 16
def tpADir (p : Nat) : Bool := p.testBit 19
def tpBBlock (p : Nat) : Nat := bitsOf p 22 20
def tpBDir (p : Nat) : Bool := p.testBit 23
def tpAccMode (p : Nat) : Nat := bitsOf p 25 24
def tpFmtB (p : Nat) : Nat := bitsOf p 31 26

/-- Move PARAM (R320). -/
def mpUnit (p : Nat) : Nat := bitsOf p 6 0
def mpEdge (p : Nat) : Bool := p.testBit 7
def mpAdv (p : Nat) : Bool := p.testBit 8
def mpSignal (p : Nat) : Option Signal := if p.testBit 9 then some ⟨bitsOf p 14 10, bitsOf p 27 15⟩ else none

/-- Send PARAM (R554, R249). -/
def spLen (p : Nat) : Nat := bitsOf p 12 0
def spSignal (p : Nat) : Option Signal := if p.testBit 13 then some ⟨bitsOf p 18 14, bitsOf p 31 19⟩ else none

/-- The finish operation's fields (R173). -/
def finOpOf (w : W128) : FinOp :=
  let p := opParam w
  { loc := bitsOf p 2 0, periodEnd := p.testBit 3, normReset := p.testBit 4, maskFrom := bitsOf p 7 5
    posStep := bitsOf p 11 8, anchor := sextNat 16 (bitsOf p 27 12), fpInf := opFpInf w, intWrap := opIntWrap w }

/-- Source kinds of R555. -/
def srcData : List Nat := [1, 2, 3, 4, 5]
def srcVec : List Nat := [1, 2, 3, 4, 5, 7]
def dstOut : List Nat := [4, 5, 7]

/-- Bytes of one vector in a format: 16 elements, 8 in FP64 (R62, R108). -/
def vecElems (src dst : Fmt) : Nat := if src == .fp64 || dst == .fp64 then 8 else 16
def vecBytes (f : Fmt) (n : Nat) : Nat := f.bytesFor n

/-- Illegal operations of the tensor class (R59, R80, R554, R555). -/
def illegalTensor (w : W128) : Bool :=
  let p := opParam w
  let tensorFmt (c : Nat) : Bool := match Fmt.ofCode c with
    | some f => !(f == .fp32 || f == .fp64)
    | none => false
  let mixed : Bool := match Fmt.ofCode (opFmt w), Fmt.ofCode (tpFmtB p) with
    | some a, some b => a.isInt != b.isInt
    | _, _ => true
  let tOk := specOk true (opDst w) [6]
  match opCode w with
  | 0 | 1 => !tOk || !specOk false (opSrcA w) [1, 2, 4, 5] || !specOk false (opSrcB w) [1, 2, 4, 5]
      || !tensorFmt (opFmt w) || !tensorFmt (tpFmtB p) || mixed || tpABlock p > 5 || tpBBlock p > 5
      || tpAccMode p > 1 || opCount w == 0
  | 2 => !tOk || !specOk false (opSrcA w) [1, 2, 4, 5] || tpAccMode p > 1 || opCount w == 0
  | 3 => !tOk || !specOk false (opSrcA w) [0] || !specOk false (opSrcB w) [0] || p != 0
  | _ => true

/-- Illegal operations of the vector class (R62, R554, R555). -/
def illegalVector (w : W128) : Bool :=
  let p := opParam w
  let f := opFmt w
  let isImm := specKind (opSrcA w) == kChan || specKind (opSrcB w) == kChan
  let fOk := f == 9 || f == 7 || f == 10
  let dOk := specOk true (opDst w) dstOut && opCount w != 0
  match opCode w with
  | 0 | 1 | 2 | 3 | 4 | 5 | 7 => !dOk || !fOk || !specOk false (opSrcA w) srcVec || !specOk false (opSrcB w) srcVec
      || (!isImm && p != 0)
  | 6 => !dOk || !fOk || !specOk false (opSrcA w) srcData || !specOk false (opSrcB w) srcData || p > 5
  | 8 | 9 => !dOk || !fOk || !specOk false (opSrcA w) srcVec || !specOk false (opSrcB w) [0] || (!isImm && p != 0)
  | 10 => !dOk || (Fmt.ofCode f).isNone || (Fmt.ofCode p).isNone || !specOk false (opSrcA w) srcData
      || !specOk false (opSrcB w) [0]
  | _ => true

/-- Illegal operations of the special-function class (R63, R554, R555). -/
def illegalSpecial (w : W128) : Bool :=
  let isImm := specKind (opSrcA w) == kChan
  opCode w > 5 || (opCode w < 4 && opFmt w != 9) || !specOk true (opDst w) dstOut || !specOk false (opSrcA w) srcVec
    || !specOk false (opSrcB w) [0] || (!isImm && opParam w != 0) || opCount w == 0

/-- Illegal moves (R320, R321, R555, R556). -/
def illegalMove (w : W128) : Bool :=
  let p := opParam w
  opCode w != 0 || opCount w == 0 || !specOk false (opSrcB w) [0] ||
  (if mpEdge p then
    mpUnit p != 64 || bitsOf p 31 28 != 0 || (!p.testBit 9 && bitsOf p 27 10 != 0)
      || !((specOk false (opSrcA w) [3] && specOk true (opDst w) [4])
        || (specOk false (opSrcA w) [4] && specOk true (opDst w) [3]))
  else
    p / 128 != 0 || mpUnit p == 0 || mpUnit p > 64 || !specOk false (opSrcA w) [1, 2, 3, 4, 5, 6]
      || !specOk true (opDst w) [3, 4, 5, 7]
      || (specKind (opDst w) == kLoc && mpUnit p > 8)
      || (specKind (opSrcA w) == kTile && opCount w * mpUnit p > 1024))

/-- Illegal sends (R249, R554-R556). -/
def illegalSend (w : W128) : Bool :=
  let p := opParam w
  !specOk true (opDst w) [7] || !specOk false (opSrcB w) [0] || (!p.testBit 13 && p / 16384 != 0) ||
  (match opCode w with
   | 0 => spLen p == 0 || !specOk false (opSrcA w) [1, 2, 3, 4, 5, 6] || (specKind (opSrcA w) == kTile && spLen p > 1024)
   | 1 => spLen p != 0 || !specOk false (opSrcA w) [6]
   | _ => true)

/-- Illegal beacon, contour and commit operations, as the words themselves show it (R245, R255, R263). R255 gives a contour operation's DST and
says nothing of its sources: both are taken to be None, and any other kind is illegal (DESIGN CHOICE, log entry 98). -/
def illegalSync (w : W128) : Bool :=
  let p := opParam w
  let none2 := specOk false (opSrcA w) [0] && specOk false (opSrcB w) [0]
  let dLoc := specOk true (opDst w) [0, 3]
  match opClass w with
  | 8 => opCode w > 2 || !none2 || !specOk true (opDst w) [0] || bitsOf p 31 21 != 0
  | 9 => opCode w > 2 || !none2 || !dLoc || bitsOf p 31 20 != 0
  | _ => opCode w > 3 || !none2 || !dLoc || (if opCode w == 0 then bitsOf p 31 5 != 0 else p != 0)

/-- An operation that R81 makes illegal whatever the state. -/
def opIllegal (w : W128) : Bool :=
  bitsOf w.toNat 47 42 != 0 || bitsOf w.toNat 83 82 != 0 ||
  (match opClass w with
   | 0 => opCode w > 2 || !specOk false (opSrcA w) [0] || !specOk false (opSrcB w) [0] || !specOk true (opDst w) [0]
        || opParam w != 0
   | 1 => illegalTensor w
   | 2 => illegalVector w
   | 3 => illegalSpecial w
   | 4 => illegalMove w
   | 5 => illegalSend w
   | 6 => opCode w != 0 || !specOk false (opSrcA w) [2] || !specOk false (opSrcB w) [0] || !specOk true (opDst w) [0]
        || spLen (opParam w) == 0 || opParam w / 8192 != 0
   | 7 => opCode w != 0 || !specOk false (opSrcA w) [6] || !specOk false (opSrcB w) [0] || !specOk true (opDst w) dstOut
        || bitsOf (opParam w) 31 28 != 0
   | 8 | 9 | 10 => illegalSync w
   | _ => true)

/-! ## Sheets (R68, R69, R187, R194, R70) -/

/-- A steering rule (R70). -/
structure Steer where
  kind : Nat
  t : Nat
  d0 : Nat
  d1 : Nat
  c0 : Nat
  c1 : Nat
  reserved : Nat
  deriving DecidableEq, Repr

def Steer.parse (n : Nat) : Steer :=
  { kind := bitsOf n 1 0, t := bitsOf n 5 2, d0 := bitsOf n 9 6, d1 := bitsOf n 13 10, c0 := bitsOf n 17 14, c1 := bitsOf n 21 18
    reserved := bitsOf n 63 22 }

/-- Queues and channels a rule names (R65, R70). -/
def Steer.queues (s : Steer) : List Nat :=
  match s.kind with
  | 1 => [s.t, s.d0]
  | 2 => [s.t, s.d0, s.d1]
  | _ => []
def Steer.chans (s : Steer) : List Nat :=
  match s.kind with
  | 1 => [s.c0, s.c1]
  | 2 => [s.c0]
  | _ => []

/-- A sheet header (R69, R187, R194). -/
structure Header where
  valid : Bool
  counted : Bool
  pace : Nat
  paceValid : Bool
  opCount : Nat
  saveT0 : Bool
  saveT1 : Bool
  inQ : Nat
  inR : Nat
  outC : Nat
  accSlot : Nat
  next : Nat
  foldEn : Bool
  visit : Nat
  exitAfter : Nat
  exit : Nat
  closeQ : Nat
  closeR : Nat
  outer : Nat
  inner : Nat
  innerFirst : Nat
  innerLast : Nat
  innerStride : Nat
  loopReserved : Nat
  steer0 : Steer
  steer1 : Steer
  reserved : Bool
  deriving DecidableEq, Repr

/-- Read a header from sheet bytes 0x00-0x3F, as one little-endian number. -/
def Header.parse (n : Nat) : Header :=
  let w (off : Nat) : Nat := bitsOf n (8 * off + 31) (8 * off)
  let d (off : Nat) : Nat := bitsOf n (8 * off + 63) (8 * off)
  let w0 := w 0
  let fold := d 0x10
  let lp := d 0x18
  { valid := w0.testBit 0, counted := w0.testBit 1, pace := bitsOf w0 4 2, paceValid := w0.testBit 5, opCount := bitsOf w0 11 6
    saveT0 := w0.testBit 12, saveT1 := w0.testBit 13, inQ := bitsOf (w 4) 15 0, inR := bitsOf (w 4) 23 16
    outC := bitsOf (w 8) 15 0, accSlot := bitsOf (w 12) 17 0
    next := bitsOf fold 2 0, foldEn := fold.testBit 3, visit := bitsOf fold 19 4, exitAfter := bitsOf fold 35 20
    exit := bitsOf fold 39 36, closeQ := bitsOf fold 55 40, closeR := bitsOf fold 63 56
    outer := bitsOf lp 15 0, inner := bitsOf lp 31 16, innerFirst := bitsOf lp 37 32, innerLast := bitsOf lp 43 38
    innerStride := bitsOf lp 55 44, loopReserved := bitsOf lp 63 56
    steer0 := Steer.parse (d 0x20), steer1 := Steer.parse (d 0x28)
    reserved := bitsOf w0 31 14 != 0 || bitsOf (w 4) 31 24 != 0 || bitsOf (w 8) 31 16 != 0 || bitsOf (w 12) 31 18 != 0
      || bitsOf n 511 384 != 0 }

/-- A range of bytes of sheet s in a sheet cache, as a little-endian number (R68). -/
def sheetNat (cache : List Host.Cell) (s off n : Nat) : Nat := leNat (cellsRead cache (1024 * s + off) n)

def sheetHeader (cache : List Host.Cell) (s : Nat) : Header := Header.parse (sheetNat cache s 0 64)
def sheetFin (cache : List Host.Cell) (s : Nat) : FinPar := FinPar.parse (sheetNat cache s 0x40 0x80)
def sheetOp (cache : List Host.Cell) (s slot : Nat) : W128 := BitVec.ofNat 128 (sheetNat cache s (0xC0 + 16 * slot) 16)
def sheetValid (cache : List Host.Cell) (s : Nat) : Bool := (cellGet 0 cache (1024 * s)).getLsbD 0

/-- Queues an operation names as a source. -/
def opQueues (w : W128) : List Nat :=
  (if opClass w == 1 && opCode w == 2 then [opSrcA w] else [opSrcA w, opSrcB w]).filterMap fun s => if specKind s == kQueue then some (specIndex s) else none

/-- Whether an operation makes requests of memory banks (02 R46, R47): a ring, memory or a neighbour's memory is a source or the destination. -/
def opMem (w : W128) : Bool :=
  [opSrcA w, opSrcB w, opDst w].any fun s => specKind s == kRing || specKind s == kMem || specKind s == kNbr

/-- The channel an operation names as DST. -/
def opChan (w : W128) : Option Nat := if specKind (opDst w) == kChan then some (specIndex (opDst w)) else none

/-- Rings an operation reads. -/
def opRings (w : W128) : List Nat :=
  (if opClass w == 1 && opCode w == 2 then [opSrcA w] else [opSrcA w, opSrcB w]).filterMap fun s => if specKind s == kRing then some (specIndex s) else none

/-- The refusals of one sheet, in the order of their atlas codes' rules (R67, R71, R165, R190, R194): true when it is refused.
An absent sheet has nothing to check. -/
def sheetBadHeader (cache : List Host.Cell) (s : Nat) : Bool :=
  let h := sheetHeader cache s
  let ops := (List.range h.opCount).map (sheetOp cache s)
  let area : Bool := (h.saveT0 && !(decide (0xC000 ≤ h.accSlot) && decide (h.accSlot + 0x400 ≤ 0x32000)))
    || (h.saveT1 && !(decide (0xC000 ≤ h.accSlot + 0x400) && decide (h.accSlot + 0x800 ≤ 0x32000)))
  let saves := h.saveT0 || h.saveT1
  h.reserved || h.opCount == 0 || h.opCount > 52 || (saves && h.accSlot % 0x400 != 0) || area
  || h.steer0.kind == 3 || h.steer1.kind == 3 || h.steer0.reserved != 0 || h.steer1.reserved != 0
  || !sheetValid cache h.next || (h.exitAfter != 0 && (h.exit > 8 || (h.exit < 8 && !sheetValid cache h.exit)))
  || (h.foldEn && h.visit == 0 && !h.counted)
  || (h.counted && (h.outer == 0 || h.inner == 0 || h.innerFirst > h.innerLast || h.innerLast ≥ h.opCount
      || h.loopReserved != 0 || ops.any fun w => opClass w == 9 || opClass w == 10))

/-- R67: a queue or channel that a steering rule names is not named by an operation of the sheet. -/
def sheetBadSteer (cache : List Host.Cell) (s : Nat) : Bool :=
  let h := sheetHeader cache s
  let ops := (List.range h.opCount).map (sheetOp cache s)
  let qs := h.steer0.queues ++ h.steer1.queues
  let cs := h.steer0.chans ++ h.steer1.chans
  ops.any fun w => ((opQueues w).any fun q => qs.contains q)
    || (match opChan w with | some c => cs.contains c | none => false)

/-- The check of a sheet that is about to be entered (R557). -/
def sheetBad (cache : List Host.Cell) (s : Nat) : Bool :=
  !sheetValid cache s || sheetBadHeader cache s || sheetBadSteer cache s || (sheetFin cache s).bad

end Sys2Proof.Machine
end

