-- ==== Sys2Proof/Machine/PlotOps.lean ====
section
/-! DEFINITION. The shared operations of one plot: counters, faults, memory, queues, rings, channels, beacons and commit groups.
A `Run` is the plot at work: the plot, its logical neighbours, and what it has sent. -/

namespace Sys2Proof.Machine

/-- A plot at work: itself, its physical number, logical place and device, its PLOT_ID, the neighbours it may reach (N, E, S, W; R54, R55),
the packets and tally packets it has sent, its field's cycle count, and the place in the supply of free values. `test` marks a rerun's run in
TEST, and `wrote` the ranges of its own memory that such a run has written (13 R445). -/
structure Run where
  p : Plot
  phys : Nat
  x : Nat
  y : Nat
  dev : Nat
  id : W32
  nbrs : List (Option Plot)
  pkts : List Packet
  tallies : List TallyPkt
  cycle : Nat
  free : Nat
  test : Bool
  wrote : List (Nat × Nat)
  deriving DecidableEq, Repr

def Run.send (r : Run) (k : Packet) : Run := { r with pkts := r.pkts ++ [k] }

/-- Packets leave a fenced plot's port never (R293): it neither sends nor receives. -/
def Run.here (r : Run) : Place := .plot r.x r.y

/-! ## Counters (R102, R103) -/

def Counters.bump (c : Counters) (k n : Nat) : Counters :=
  let v := (c.now[k]?).getD 0 + n
  { c with now := c.now.set k (v % 2 ^ 32), wrap := if v < 2 ^ 32 then c.wrap else c.wrap ||| 2 ^ k }

def Plot.bump (p : Plot) (k n : Nat) : Plot := if n = 0 then p else { p with cnt := p.cnt.bump k n }

/-- The counter numbers of R102. -/
def cFire : Nat := 0
def cStallIn : Nat := 1
def cStallOut : Nat := 2
def cStallMem : Nat := 3
def cMsgIn : Nat := 4
def cEccCorr : Nat := 5
def cEccPoison : Nat := 6

/-- Latch at an epoch boundary (R103, 06 R241): copies, then everything restarts. -/
def Channel.latch (c : Channel) : Channel :=
  { c with latMsgs := c.msgs, latStalls := c.stalls, latDrops := c.drops, latWrap := c.wrap
           msgs := 0, stalls := 0, drops := 0, wrap := 0 }

def Plot.latch (p : Plot) (epoch : Nat) : Plot :=
  { p with cnt := { now := List.replicate 7 0, wrap := 0, lat := p.cnt.now, latWrap := p.cnt.wrap, epoch := epoch }
           chans := p.chans.map Channel.latch }

/-- Running counts of a channel (06 R241): 0 messages, 1 stalls, 2 drops. -/
def Channel.bump (c : Channel) (k n : Nat) : Channel :=
  let add (v : Nat) : Nat × BitVec 3 := ((v + n) % 2 ^ 32, if v + n < 2 ^ 32 then 0 else BitVec.ofNat 3 (2 ^ k))
  match k with
  | 0 => let (v, w) := add c.msgs; { c with msgs := v, wrap := c.wrap ||| w }
  | 1 => let (v, w) := add c.stalls; { c with stalls := v, wrap := c.wrap ||| w }
  | _ => let (v, w) := add c.drops; { c with drops := v, wrap := c.wrap ||| w }

/-! ## Memory (R43, R44, R55, 09 R313, 07 R265) -/

/-- Read the plot's own stored memory; corrections and uncorrectable words count where they are found. -/
def Plot.memRead (p : Plot) (a n : Nat) : Plot × Data :=
  let r := p.mem.read a n
  ((({ p with mem := r.mem }).bump cEccCorr r.corrected).bump cEccPoison r.uncorrectable, r.data)

def Plot.memWrite (p : Plot) (a : Nat) (d : Data) : Plot :=
  let r := p.mem.write a d
  (({ p with mem := r.mem }).bump cEccCorr r.corrected).bump cEccPoison r.uncorrectable

/-- Lay a shadow entry over bytes read from address a (07 R265). -/
def overlayStore (a : Nat) (d : Data) (s : Store) : Data :=
  (d.zipIdx).map fun bi =>
    let i := a + bi.2
    if s.addr ≤ i ∧ i < s.addr + s.data.length then (s.data[i - s.addr]?).getD bi.1 else bi.1

/-- Read own memory as the plot's own operations see it: an open group's stores over memory (07 R265). -/
def Plot.ownRead (p : Plot) (a n : Nat) : Plot × Data :=
  let (p, d) := p.memRead a n
  (p, if p.group.state = 1 then Data.settle (p.group.stores.foldl (overlayStore a) d) else d)

/-- The TRAP_ADDR of a plot-local offset (R97). `dir` is a neighbour direction. -/
def trapAddr (dir : Option Nat) (off : Nat) : Nat :=
  off % 2 ^ 18 + (match dir with | some d => d * 2 ^ 20 + 2 ^ 22 | none => 0)

/-- A neighbour that the plot may not reach (R55). In TEST every neighbour access is made, and reaches nothing (13 R445). -/
def Run.away (r : Run) (dir : Option Nat) : Bool :=
  match dir with
  | some d => !r.test && ((r.nbrs[d]?).getD none).isNone
  | none => false

/-- The TRAP_ADDR of an access of one operand unit (R97): none when the access may be made (R43, R44, R55, R87). -/
def Run.badAccess (r : Run) (dir : Option Nat) (off n : Nat) : Option Nat :=
  if r.away dir = true ∨ off / 64 ≠ (off + n - 1) / 64 ∨ ((n = 2 ∨ n = 4 ∨ n = 8) ∧ off % n ≠ 0) ∨ 0x32000 < off + n then
    some (trapAddr dir off)
  else none

/-- The TRAP_ADDR of the memory range of a send 0x00 (R556): it is read line by line, so it need only lie wholly within pad or wholly within
the underlay program area. Where R44 speaks of a unit of at most 64 bytes that crosses a line, R556's range rule stands for a send's
source of any length (DEDUCED, log entry 35). -/
def Run.badRange (r : Run) (dir : Option Nat) (off n : Nat) : Option Nat :=
  if r.away dir = true ∨ 0x32000 < off + n ∨ (off < 0xC000 ∧ 0xC000 < off + n) then some (trapAddr dir off) else none

/-- Read own or a neighbour's memory; a neighbour access in TEST reads zero (13 R445). -/
def Run.read (r : Run) (dir : Option Nat) (a n : Nat) : Run × Data :=
  match dir with
  | none => let (p, d) := r.p.ownRead a n; ({ r with p := p }, d)
  | some k =>
    match (r.nbrs[k]?).getD none with
    | none => (r, if r.test then List.replicate n ((0 : Byte), false) else [])
    | some q => let (q, d) := q.memRead a n; ({ r with nbrs := r.nbrs.set k (some q) }, d)

/-! ## Faults (R87, R96, R97) -/

/-- What a trap record takes from an operation (R97, R146). -/
structure TrapSrc where
  sheet : Nat
  slot : Nat
  fire : Nat
  opndA : W32
  opndB : W32
  deriving DecidableEq, Repr

def Flight.trapSrc (f : Flight) : TrapSrc := ⟨f.sheet, f.slot, f.number, f.trapA, f.trapB⟩

/-- Record an event in the trace block (16 R529). -/
def Plot.traceEvent (p : Plot) (cycle kind sheet slot : Nat) : Plot :=
  let t := p.trace
  if t.ctl.getLsbD 0 && t.ctl.getLsbD (kind + 1) && !t.ctl.getLsbD 4 then
    let fire := (p.seq.fires[sheet]?).getD 0
    let e : W64 := BitVec.ofNat 64 (cycle % 2 ^ 32 + sheet % 8 * 2 ^ 32 + slot % 64 * 2 ^ 35 + kind * 2 ^ 41 + fire % 2 ^ 21 * 2 ^ 43)
    { p with trace := { t with count := t.count + 1, entries := t.entries.set (t.count.toNat % 8) e } }
  else p

/-- TRAP_OPND of a specifier: a queue's pop count, a ring's head (R97). -/
def Plot.trapOpnd (p : Plot) (spec : Nat) : W32 :=
  let head := match specKind spec with
    | 1 => ((p.queues[specIndex spec]?).map (·.pops)).getD 0 % 2 ^ 24
    | 2 => ((p.rings[specIndex spec]?).map (·.head)).getD 0
    | _ => 0
  BitVec.ofNat 32 (spec % 256 + head * 256)

/-- Set the fault bit and, while TRAP_INFO.VALID is 0, write the record (R87, R97, R149). -/
def Plot.recordFault (p : Plot) (id : W32) (cause : Nat) (s : TrapSrc) (addr nan : Nat) : Plot :=
  let t := { p.trap with fault := p.trap.fault ||| BitVec.ofNat 5 (2 ^ (cause - 1)) }
  let t := if t.info.getLsbD 0 then t else
    { t with info := BitVec.ofNat 32 (1 + cause * 2 + s.sheet % 8 * 16 + s.slot % 64 * 128)
             fire := BitVec.ofNat 32 s.fire, opndA := s.opndA, opndB := s.opndB, addr := BitVec.ofNat 64 addr
             plot := id, nan := BitVec.ofNat 32 nan }
  { p with trap := t }

/-! ## Nimbus slots (07 R252-R256) -/

def Slot.tree (s : Slot) : Nat := bitsOf s.w0.toNat 11 0
def Slot.role (s : Slot) : Nat := bitsOf s.w0.toNat 14 12
def Slot.root (s : Slot) : Bool := s.w0.getLsbD 15
def Slot.oper (s : Slot) : Nat := bitsOf s.w0.toNat 17 16
def Slot.use (s : Slot) : Nat := bitsOf s.w0.toNat 19 18
def Slot.arrived (s : Slot) : Bool := s.w0.getLsbD 20
def Slot.active (s : Slot) : Bool := s.w0.getLsbD 21
def Slot.spans (s : Slot) : Bool := s.w0.getLsbD 22
def Slot.expect (s : Slot) : Nat := bitsOf s.w0.toNat 34 24
def Slot.count (s : Slot) : Nat := bitsOf s.w0.toNat 45 35
def Slot.tally (s : Slot) : Nat := bitsOf s.w0.toNat 61 46
def Slot.phase (s : Slot) : Nat := bitsOf s.w1.toNat 15 0
def Slot.result (s : Slot) : Nat := bitsOf s.w1.toNat 31 16
def Slot.status (s : Slot) : Nat := bitsOf s.w1.toNat 33 32

/-- Replace bits hi..lo of a 64-bit word. -/
def putBits (w : W64) (hi lo v : Nat) : W64 :=
  let m := 2 ^ (hi + 1 - lo)
  BitVec.ofNat 64 (w.toNat - bitsOf w.toNat hi lo * 2 ^ lo + v % m * 2 ^ lo)

def Slot.setArrived (s : Slot) (b : Bool) : Slot := { s with w0 := putBits s.w0 20 20 (if b then 1 else 0) }
def Slot.setActive (s : Slot) (b : Bool) : Slot := { s with w0 := putBits s.w0 21 21 (if b then 1 else 0) }
def Slot.setCount (s : Slot) (c t : Nat) : Slot := { s with w0 := putBits (putBits s.w0 45 35 c) 61 46 t }

/-- A completed phase at a node (R254). -/
def Slot.complete (s : Slot) (result status : Nat) : Slot :=
  { s with w1 := putBits (putBits (putBits s.w1 15 0 (s.phase + 1)) 31 16 result) 33 32 status }

/-- Combine tallies (R253). -/
def combineTally (oper a b : Nat) : Nat :=
  match oper with
  | 1 => a ||| b
  | 2 => max a b
  | _ => min 0xFFFF (a + b)

/-- The result word (R256). -/
def Slot.resultWord (s : Slot) : W64 := BitVec.ofNat 64 (s.result + s.phase * 2 ^ 16 + s.status * 2 ^ 32)

def Plot.slot (p : Plot) (k : Nat) : Slot := (p.slots[k]?).getD Slot.reset
def Plot.setSlot (p : Plot) (k : Nat) (s : Slot) : Plot := { p with slots := p.slots.set k s }

/-- A completed phase of an epoch tree closes a tree epoch at a member plot (R257, 15 R509): the epoch's low bits advance and the
counters of R103 latch. -/
def Plot.treeEpoch (p : Plot) (use : Nat) : Plot :=
  if use ≠ 2 then p
  else
    let e := p.cnt.epoch
    { p with cnt := { now := List.replicate 7 0, wrap := 0, lat := p.cnt.now, latWrap := p.cnt.wrap
                      epoch := e / 65536 * 65536 + (e + 1) % 65536 } }

/-- A phase completes at a leaf (R254, R260). -/
def Plot.leafDone (p : Plot) (k result status : Nat) : Plot :=
  let s := p.slot k
  (p.setSlot k ((s.complete result status).setArrived false)).treeEpoch s.use

/-- A leaf arrives (R254): on a lost tree the phase completes at once with its status (R260); otherwise the tally goes to the
parent, addressed when it leaves (kind 0, the parent found by the trees of the state). -/
def Run.arrive (r : Run) (k tally : Nat) : Run :=
  let s := r.p.slot k
  if s.lost ≠ 0 then
    { r with p := r.p.leafDone k 0 s.lost }
  else
    let t : TallyPkt := { srcX := r.x, srcY := r.y, x := r.x, y := r.y, slot := k, kind := 0, tree := s.tree, status := 0, tally := tally }
    { r with p := r.p.setSlot k (s.setArrived true), tallies := r.tallies ++ [t] }

/-! ## Channels (06 R218-R221, R230, R237) -/

def Channel.kind (c : Channel) : Nat := bitsOf c.dest.toNat 1 0
def Channel.index (c : Channel) : Nat := bitsOf c.dest.toNat 5 2
def Channel.rtail (c : Channel) : Nat := bitsOf c.dest.toNat 17 6
def Channel.dev (c : Channel) : Nat := bitsOf c.dest.toNat 48 39
def Channel.tx (c : Channel) : Nat := bitsOf c.dest.toNat 38 28
def Channel.ty (c : Channel) : Nat := bitsOf c.dest.toNat 27 18
def Channel.credit (c : Channel) : Nat := bitsOf c.dest.toNat 61 49
def Channel.closed (c : Channel) : Bool := c.dest.getLsbD 62
def Channel.enable (c : Channel) : Bool := c.dest.getLsbD 63
def Channel.setCredit (c : Channel) (n : Nat) : Channel := { c with dest := putBits c.dest 61 49 n }
def Channel.setRtail (c : Channel) (n : Nat) : Channel := { c with dest := putBits c.dest 17 6 n }

/-- A grant, at most 8,191 held (R218, R398). -/
def Channel.grant (c : Channel) (n : Nat) : Channel := c.setCredit (min 8191 (c.credit + n))

/-- Placement in a ring (R230), in units: start, skip. -/
def placeIn (size tail len : Nat) : Nat × Nat :=
  let f := 1 + (len + 31) / 32
  let room := size - tail
  if f ≤ room then (tail, 0) else (0, room)

/-- Units of a ring of a size code (R229). -/
def ringUnits (rsz : Nat) : Nat := 2 ^ (2 + rsz)

/-- The credit a message needs, and the ring tail after it (R219, R230, R398). -/
def Channel.need (c : Channel) (len : Nat) : Nat × Nat :=
  match c.kind with
  | 1 =>
    let (start, skip) := placeIn (ringUnits c.rsz) c.rtail len
    let f := 1 + (len + 31) / 32
    (skip + f, (start + f) % ringUnits c.rsz)
  | 2 => ((len + 31) / 32, c.rtail)
  | _ => (1, c.rtail)

def Plot.chan (p : Plot) (c : Nat) : Channel := (p.chans[c]?).getD Channel.reset
def Plot.setChan (p : Plot) (c : Nat) (v : Channel) : Plot := { p with chans := p.chans.set c v }

/-- Whether credit stands for one message: a closed channel grants itself credit without limit (R237). -/
def Channel.ready (c : Channel) (len : Nat) : Bool := c.closed || decide ((c.need len).1 ≤ c.credit)

/-- Take the credit of a message and move the ring tail (R220, R230). -/
def Channel.spend (c : Channel) (len : Nat) : Channel :=
  let n := c.need len
  let c' := c.setCredit (c.credit - n.1)
  if c.kind = 1 then c'.setRtail n.2 else c'

/-- The message a channel puts on the network, and where it goes (R218, R221). -/
def Run.putOnNet (r : Run) (ch : Nat) (d : Data) (sig : Option Signal) (commit : Bool) : Run :=
  let c := r.p.chan ch
  let m : Message :=
    { dev := c.dev, x := c.tx, y := c.ty, ring := c.kind == 1, index := if c.kind == 2 then c.rtail else c.index, data := d
      srcDev := r.dev, srcX := r.x, srcY := r.y, srcCh := ch, srcPort := false, signal := sig, commit := commit, short := false }
  let dst : Place := if c.dev ≠ r.dev then .away c.dev else if c.kind = 2 then .port c.index else .plot c.tx c.ty
  ({ r with p := r.p.setChan ch (c.bump 0 1) }).send ⟨r.here, dst, if commit then 0 else 1, .msg m⟩

/-- One message on a channel that is ready for it: a closed channel discards it before the network and counts a drop (R237). -/
def Run.chanPut (r : Run) (ch : Nat) (d : Data) (sig : Option Signal) : Run :=
  let c := r.p.chan ch
  if c.closed then { r with p := r.p.setChan ch (c.bump 2 1) }
  else ({ r with p := r.p.setChan ch (c.spend d.length) }).putOnNet ch d sig false

/-- The address fault of a channel's target (R39): the global address in form 0b01. -/
def Run.badTarget (r : Run) (ch : Nat) : Option Nat :=
  let c := r.p.chan ch
  if c.kind ≠ 2 ∧ (1199 < c.tx ∨ 767 < c.ty) then some (2 ^ 62 + globalAddr c.dev c.tx c.ty 0) else none

/-! ## Readers: credit owed and returned (06 R219, R223, R224) -/

def Plot.writer (p : Plot) (reader : Nat) : Option Writer := (p.writers[reader]?).getD none

def Writer.inside : Writer → Bool
  | .channel _ _ _ _ i => i
  | .stream _ _ => false

/-- Where a notice to a writer goes. -/
def Writer.place (dev : Nat) : Writer → Place
  | .channel d x y _ _ => if d = dev then .plot x y else .away d
  | .stream p _ => .port p

def Plot.queue (p : Plot) (n : Nat) : Queue := (p.queues[n]?).getD Queue.reset
def Plot.setQueue (p : Plot) (n : Nat) (q : Queue) : Plot := { p with queues := p.queues.set n q }
def Plot.ring (p : Plot) (n : Nat) : Ring := (p.rings[n]?).getD Ring.reset
def Plot.setRing (p : Plot) (n : Nat) (q : Ring) : Plot := { p with rings := p.rings.set n q }

/-- Units a reader owes to an outside writer. Readers are numbered 0-15 queues, 16-23 rings. -/
def Plot.owed (p : Plot) (reader : Nat) : Nat := if reader < 16 then (p.queue reader).owed else (p.ring (reader - 16)).owed
def Plot.setOwed (p : Plot) (reader n : Nat) : Plot :=
  if reader < 16 then p.setQueue reader { p.queue reader with owed := n }
  else p.setRing (reader - 16) { p.ring (reader - 16) with owed := n }

/-- With open gates, send what is owed to the outside writer as one grant (R223). -/
def Run.flushOwed (r : Run) (reader : Nat) : Run :=
  match r.p.writer reader with
  | some w =>
    let n := r.p.owed reader
    if r.p.gate && !w.inside && n != 0 then
      ({ r with p := r.p.setOwed reader 0 }).send ⟨r.here, w.place r.dev, 3, .grant w n⟩
    else r
  | none => r

def Run.flushAllOwed (r : Run) : Run := (List.range 24).foldl Run.flushOwed r

/-- Freed room goes back to the writer: to an inside writer at once, to an outside writer by what is owed (R223, R224). -/
def Run.freed (r : Run) (reader n : Nat) : Run :=
  if n = 0 then r
  else match r.p.writer reader with
    | none => r
    | some w =>
      if w.inside then r.send ⟨r.here, w.place r.dev, 3, .grant w n⟩
      else ({ r with p := r.p.setOwed reader (r.p.owed reader + n) }).flushOwed reader

/-- Pop one queue entry (R226, R100). -/
def Run.popQueue (r : Run) (n : Nat) : Option (Run × Data) :=
  let q := r.p.queue n
  match q.entries with
  | [] => none
  | e :: rest =>
    some (({ r with p := r.p.setQueue n { q with entries := rest, pops := (q.pops + 1) % 2 ^ 32 } }).freed n 1, e)

/-! ## Rings (06 R229-R235) -/

/-- LEN and HKIND of the header at a unit of a ring (R232). -/
def Run.ringHeader (r : Run) (k u : Nat) : Run × Nat × Nat :=
  let (p, d) := r.p.memRead ((r.p.ring k).base + 32 * u) 3
  let n := dataNat d
  ({ r with p := p }, n % 65536, n / 65536)

/-- Payload bytes that landed messages still hold: the head message's, then the next ones' (R234). -/
def Run.ringHas (r : Run) (k : Nat) : Nat → Nat → Nat → Nat
  | 0, _, _ => 0
  | m + 1, u, size =>
    let (_, len, kind) := r.ringHeader k u
    let (u', len') := if kind = 1 then (0, (r.ringHeader k 0).2.1) else (u, len)
    len' + r.ringHas k m ((u' + 1 + (len' + 31) / 32) % size) size

def Run.ringAvail (r : Run) (k : Nat) : Nat :=
  let g := r.p.ring k
  if g.msgs = 0 then 0
  else
    let size := ringUnits g.rsz
    let (_, len, _) := r.ringHeader k g.head
    g.left + r.ringHas k (g.msgs - 1) ((g.head + 1 + (len + 31) / 32) % size) size

/-- If the unit at the head holds a skip, free it and go to the base (R234): units freed. The unit where a message is placed that has not
landed holds no header yet (R233). -/
def Run.ringSkip (r : Run) (k : Nat) : Run × Nat :=
  let g := r.p.ring k
  let unwritten := match g.landing with | some l => l.start == g.head | none => false
  if g.used = 0 ∨ unwritten = true then (r, 0)
  else
    let (r, _, kind) := r.ringHeader k g.head
    if kind = 1 then
      let n := ringUnits g.rsz - g.head
      ({ r with p := r.p.setRing k { g with head := 0, used := g.used - n } }, n)
    else (r, 0)

/-- Make the message at the head the head message: LEFT is its length. -/
def Run.ringTakeHead (r : Run) (k : Nat) : Run :=
  let g := r.p.ring k
  if g.msgs = 0 then { r with p := r.p.setRing k { g with left := 0 } }
  else
    let (r, len, _) := r.ringHeader k g.head
    { r with p := r.p.setRing k { r.p.ring k with left := len } }

/-- The head message is wholly consumed (R234): its footprint is freed, the pop counted, the head moved past a skip. -/
def Run.ringAdvance (r : Run) (k len : Nat) : Run :=
  let g := r.p.ring k
  let f := 1 + (len + 31) / 32
  let g' := { g with head := (g.head + f) % ringUnits g.rsz, used := g.used - f, msgs := g.msgs - 1
                     pops := (g.pops + 1) % 2 ^ 32 }
  let r := { r with p := r.p.setRing k g' }
  let (r, n) := r.ringSkip k
  (r.ringTakeHead k).freed (16 + k) (f + n)

/-- Consume n bytes that are there (R234); the fuel is at least the messages touched. -/
def Run.ringTake (r : Run) (k : Nat) (readIt : Bool) : Nat → Nat → Run × Data
  | 0, _ => (r, [])
  | fuel + 1, n =>
    if n = 0 then (r, [])
    else
      let g := r.p.ring k
      let (r, len, _) := r.ringHeader k g.head
      let m := min n g.left
      let (r, d) := if readIt then
          let (p, d) := r.p.ownRead (g.base + 32 * (g.head + 1) + (len - g.left)) m
          ({ r with p := p }, d)
        else (r, [])
      let r := { r with p := r.p.setRing k { r.p.ring k with left := g.left - m } }
      let r := if g.left - m = 0 then r.ringAdvance k len else r
      let (r, rest) := r.ringTake k readIt fuel (n - m)
      (r, d ++ rest)

/-- Read n bytes of a ring, or wait (R234). A read that spans two lines makes two accesses; the second costs a cycle that counts
in CNT_STALL_MEM. -/
def Run.ringRead (r : Run) (k n : Nat) : Option (Run × Data) :=
  if r.ringAvail k < n then none
  else
    let g := r.p.ring k
    let (_, len, _) := r.ringHeader k g.head
    let a := g.base + 32 * (g.head + 1) + (len - g.left)
    let two := decide (a / 64 ≠ (a + min n g.left - 1) / 64 ∨ g.left < n)
    let (r, d) := r.ringTake k true (n + 1) n
    some ({ r with p := r.p.bump cStallMem (if two then 1 else 0) }, d)

/-- Ring operation 0x00 (R234). -/
def Run.ringRelease (r : Run) (k n : Nat) : Option Run :=
  if r.ringAvail k < n then none else some (r.ringTake k false (n + 1) n).1

/-- A message lands in a queue (R226, R83): zero-filled to 32 bytes. -/
def Plot.landQueue (p : Plot) (n : Nat) (d : Data) : Plot :=
  let q := p.queue n
  let e := Data.settle (d ++ List.replicate (32 - d.length) ((0 : Byte), false))
  (p.setQueue n { q with entries := q.entries ++ [e] }).bump cMsgIn 1

/-! ## Beacons (07 R244-R250) -/

def Plot.beacon (p : Plot) (b : Nat) : Nat := (p.beacons[b]?).getD 0
def Plot.beaconSet (p : Plot) (b v : Nat) : Plot := { p with beacons := p.beacons.set b (v % 65536) }
def Plot.beaconAdd (p : Plot) (b v : Nat) : Plot := p.beaconSet b (p.beacon b + v)

/-- A signal is applied when its message has landed (R250). -/
def Plot.applySignal (p : Plot) : Option Signal → Plot
  | some s => p.beaconAdd s.beacon s.add
  | none => p

/-- The serial comparison of a wait (R246). -/
def reached (v t : Nat) : Bool := decide ((v + 65536 - t % 65536) % 65536 < 32768)

/-! ## Commit groups (07 R263-R276) -/

/-- CG_FLAGS bits (R272). -/
def gOverflow : Nat := 0
def gFaultAbort : Nat := 1
def gUnclosed : Nat := 2
def gVoteAbort : Nat := 3
def gTorn : Nat := 4
def gDrainAbort : Nat := 5

def Group.flag (g : Group) (k : Nat) : Group := { g with flags := g.flags ||| BitVec.ofNat 6 (2 ^ k) }

/-- A send of the open group that is still taking its credit, message by message (R266). -/
def Plot.takingCredit (p : Plot) (f : Flight) : Bool := opClass f.word == 5 && f.work && f.grp == p.group.opened + 1

/-- Put back what the held sends and those still taking credit took: credit, and each ring channel's RTAIL of before the group (R269). -/
def Plot.refundSends (p : Plot) : Plot :=
  let back (p : Plot) (w : W128) (n : Nat) : Plot :=
    let ch := specIndex (opDst w)
    p.setChan ch ((p.chan ch).grant n)
  let p := p.group.sends.foldl (fun (p : Plot) s => back p s.word s.credit) p
  let part := p.seq.ops.filter p.takingCredit
  let p := part.foldl (fun (p : Plot) f => back p f.word f.outDone) p
  let p := { p with seq := { p.seq with ops := p.seq.ops.map fun f => if p.takingCredit f then { f with outDone := 0 } else f } }
  p.group.tails.foldl (fun (p : Plot) t =>
    let c := p.chan t.1
    if c.kind = 1 then p.setChan t.1 (c.setRtail t.2) else p) p

/-- Discard the group's stores and sends (R269). -/
def Plot.dropGroup (p : Plot) : Plot :=
  let p := p.refundSends
  { p with group := { p.group with stores := [], sends := [], tails := [] } }

/-- Abort an open group for a cause of R268 or R269: with a parcel group that has not voted, the vote 1 is cast at once (R274).
The group stays ABORTED until an operation closes it; where `ends`, no operation will, and it ends with `status` (an overflowed
one with 2, R271). A parcel group that ends so has voted and will not join: the plot still owes the confirm phase an arrival (R273, R276; log
entry 72). -/
def Run.abortGroup (r : Run) (flag status : Nat) (ends : Bool) : Run :=
  let g := r.p.group
  if g.state = 1 then
    let p := r.p.dropGroup
    let vote := g.parcel && !g.voted
    let g1 := p.group.flag flag
    let g2 := { g1 with state := if ends then 0 else 2, voted := (g.voted || vote) && !ends
                        last := if ends then status else g1.last, overflowed := flag == gOverflow
                        owes := if ends && g.parcel then some g.slot else g1.owes }
    let r := { r with p := { p with group := g2 } }
    if vote then r.arrive g.slot 1 else r
  else if g.state = 2 ∧ ends = true then
    let g1 := g.flag flag
    { r with p := { r.p with group := { g1 with state := 0, last := if g.overflowed then 2 else status, voted := false
                                                overflowed := false, owes := if g.parcel then some g.slot else g1.owes } } }
  else r

/-- The plot leaves RUNNING and DRAINING: every ticket goes back, one give-back each (09 R332). -/
def Run.leaveRunning (r : Run) : Run :=
  let backs := (List.range 24).flatMap fun c =>
    List.replicate ((r.p.edge.tickets[c]?).getD 0) (⟨r.here, .emc c, 2, .giveBack r.phys c⟩ : Packet)
  { r with p := { r.p with edge := { r.p.edge with tickets := List.replicate 24 0 } }, pkts := r.pkts ++ backs }

/-- Raise a fault (R87): the bit and the record, the faulted state from RUNNING or DRAINING, the trace event, the group aborted
(07 R269), an open generation period discarded (04 R171). -/
def Run.fault (r : Run) (cause : Nat) (s : TrapSrc) (addr nan : Nat) : Run :=
  let first := !r.p.trap.info.getLsbD 0
  let p := r.p.recordFault r.id cause s addr nan
  let p := p.traceEvent r.cycle 2 s.sheet (if first then s.slot else bitsOf p.trap.info.toNat 12 7)
  let running := decide (p.st = .running ∨ p.st = .draining)
  let p := { p with seq := { p.seq with gen := none } }
  let p := if running then { p with st := .faulted } else p
  let r := { r with p := p }
  let g := p.group
  let r := if (g.state = 1 ∧ ¬ g.voted) ∨ (g.state = 2 ∧ g.step = 0) then r.abortGroup gFaultAbort 5 true else r
  if running then r.leaveRunning else r

/-- Add a store to the shadow buffer, or overflow (R265, R268). In ABORTED stores vanish. -/
def Run.groupStore (r : Run) (a : Nat) (d : Data) : Run :=
  let g := r.p.group
  if g.state ≠ 1 then r
  else if g.stores.length ≥ 32 then r.abortGroup gOverflow 2 false
  else { r with p := { r.p with group := { g with stores := g.stores ++ [⟨a, d⟩], used := g.used + 1 } } }

/-- An operation of a group that has ended without it: an abort discards its remaining stores and sends (R268, R269). -/
def Plot.outlives (p : Plot) (f : Flight) : Bool :=
  f.grp != 0 && (p.group.state == 0 || p.group.opened + 1 != f.grp)

/-- Write own memory, noting the range in a run in TEST (13 R445). -/
def Run.ownWrite (r : Run) (a : Nat) (d : Data) : Run :=
  { r with p := r.p.memWrite a d, wrote := if r.test then r.wrote ++ [(a, d.length)] else r.wrote }

/-- Store one unit to own memory as an operation does: to the shadow buffer in a group (R265). -/
def Run.ownStore (r : Run) (f : Flight) (a : Nat) (d : Data) : Run :=
  if r.p.outlives f then r
  else if r.p.group.state = 1 ∨ r.p.group.state = 2 then r.groupStore a d
  else r.ownWrite a d

/-- Write-out of a group (R270): its entries in order; then the held sends on VC0, each reading its source now (R266, R267). -/
def Run.commitSend (r : Run) (s : HeldSend) : Run :=
  let w := s.word
  let ch := specIndex (opDst w)
  let tile (i : Nat) : List Byte := tileBytes (if i = 0 then r.p.tile0 else r.p.tile1)
  let p := opParam w
  let emit (r : Run) (d : Data) (sig : Option Signal) : Run :=
    if (r.p.chan ch).closed then { r with p := r.p.setChan ch ((r.p.chan ch).bump 2 1) } else r.putOnNet ch d sig true
  if opCode w = 1 then
    let bs := tile (tileIndex (opSrcA w) s.number)
    (List.range 32).foldl (fun r i =>
      emit r (cleanData ((bs.drop (32 * i)).take 32)) (if i = 31 then spSignal p else none)) r
  else
    let n := spLen p
    match specKind (opSrcA w) with
    | 4 => let (q, d) := r.p.memRead (opAddr w) n; emit { r with p := q } d (spSignal p)
    | 6 => emit r (cleanData ((tile (tileIndex (opSrcA w) s.number)).take n)) (spSignal p)
    | _ =>
      let reg := leBytes 8 ((r.p.loc[8 * s.sheet + specIndex (opSrcA w)]?).getD 0).toNat
      emit r (cleanData ((List.range n).map fun i => (reg[i % 8]?).getD 0)) (spSignal p)

def Run.commitGroup (r : Run) : Run :=
  let g := r.p.group
  let r := g.stores.foldl (fun (r : Run) s => r.ownWrite s.addr s.data) r
  let r := { r with p := { r.p with group := { r.p.group with stores := [], sends := [], tails := [] } } }
  g.sends.foldl Run.commitSend r

/-- The commit word (R271). -/
def commitWord (status used held : Nat) : W64 := BitVec.ofNat 64 (status % 8 + used % 64 * 2 ^ 8 + held % 16 * 2 ^ 16)

/-- Close the group with a status. -/
def Plot.closeGroup (p : Plot) (status : Nat) : Plot :=
  { p with group := { p.group with state := 0, voted := false, last := status, overflowed := false, step := 0
                                   stores := [], sends := [], tails := [] } }

/-- Write a sheet-local register of the current sheet. -/
def Plot.setLoc (p : Plot) (sheet i : Nat) (v : W64) : Plot := { p with loc := p.loc.set (8 * sheet + i) v }
def Plot.getLoc (p : Plot) (sheet i : Nat) : W64 := (p.loc[8 * sheet + i]?).getD 0

/-- The result word of contour and commit operations goes to DST when it names a register (R255, R263). -/
def Plot.putResult (p : Plot) (sheet : Nat) (w : W128) (v : W64) : Plot :=
  if specKind (opDst w) = kLoc then p.setLoc sheet (specIndex (opDst w)) v else p

end Sys2Proof.Machine
end

