-- ==== Sys2Proof/Machine/Units.lean ====
section
/-! DEFINITION. The units of a plot carrying out an operation in flight (spec/02_plots.md R57-R64, R227, R234, R555, R556,
spec/04 R152-R173): each function goes on until the operation has done its work, waits, or faults. The rows of the opcode table
call these from SheetOps.lean. -/

namespace Sys2Proof.Machine

/-- An operation at work: the plot, its flight, and whether it may go on. -/
inductive Go where
  | on (r : Run) (f : Flight)
  | stop (r : Run) (f : Flight)
  deriving DecidableEq, Repr

/-- What a read of one operand unit gave. -/
inductive Got where
  | got (r : Run) (f : Flight) (d : Data)
  | wait (r : Run) (f : Flight)
  | fault (r : Run) (f : Flight)
  deriving DecidableEq, Repr

/-- Raise a fault in an operation: it writes and sends nothing more (R82, R144). -/
def Run.faultOp (r : Run) (f : Flight) (cause addr nan : Nat) : Run × Flight :=
  (r.fault cause f.trapSrc addr nan, { f with work := false, wait := .none, out := [] })

/-- TRAP_NAN (03 R147). -/
def trapNan (source unit elem : Nat) : Nat := source + unit % 65536 * 8 + elem % 64 * 2 ^ 19

/-- A poison fault, a NaN fault, or both in one cycle (R82, 03 R143, R148). -/
def Run.faultData (r : Run) (f : Flight) (poison : Bool) (nan : Option Nat) : Run × Flight :=
  let r := if poison then r.fault 2 f.trapSrc 0 0 else r
  let r := match nan with | some n => r.fault 5 f.trapSrc 0 n | none => r
  (r, { f with work := false, wait := .none, out := [] })

def Plot.tile (p : Plot) (i : Nat) : List W128 := if i = 0 then p.tile0 else p.tile1
def Plot.setTile (p : Plot) (i : Nat) (t : List W128) : Plot := if i = 0 then { p with tile0 := t } else { p with tile1 := t }
def zeroTile : List W128 := List.replicate 64 0

/-- Pop queue entries until n bytes are at hand (R227); the fuel is the entries needed. -/
def Run.popBytes (r : Run) (f : Flight) (q n : Nat) : Nat → Got
  | 0 => .wait r f
  | fuel + 1 =>
    if n ≤ f.part.length then .got r { f with part := [] } (f.part.take n)
    else match r.popQueue q with
      | none => .wait r f
      | some (r, e) => r.popBytes { f with part := f.part ++ e } q n fuel

/-- A memory address of a unit: ADDR, the repetition's bytes, and the unit's STRIDE (R76, 05 R195). -/
def Flight.addr (f : Flight) (unit : Nat) : Nat := opAddr f.word + f.rep + unit * opStride f.word

/-- Read n bytes of one unit of a source operand (R77, R227, R234, R556). -/
def Run.fetch (r : Run) (f : Flight) (spec unit n : Nat) : Got :=
  let i := specIndex spec
  match specKind spec with
  | 1 => r.popBytes f i n ((n + 31) / 32 + 1)
  | 2 => match r.ringRead i n with
    | some (r, d) => .got r f d
    | none => .wait r f
  | 3 =>
    let reg := leBytes 8 (r.p.getLoc f.sheet i).toNat
    .got r f (cleanData ((List.range n).map fun b => (reg[b % 8]?).getD 0))
  | 6 => .got r f (cleanData (((tileBytes (r.p.tile (tileIndex spec f.number))).drop (unit * n)).take n))
  | 7 =>
    let imm := leBytes 4 (opParam f.word)
    .got r f (cleanData ((List.range n).map fun b => (imm[b % 4]?).getD 0))
  | k =>
    let dir := if k = kNbr then some i else none
    match r.badAccess dir (f.addr unit) n with
    | some ta => let (r, f) := r.faultOp f 3 ta 0; .fault r f
    | none => let (r, d) := r.read dir (f.addr unit) n; .got r f d

/-- Deliver one unit to DST (R77, R220, R221, R556, 07 R265). -/
def Run.deliver (r : Run) (f : Flight) (unit : Nat) (d : Data) : Go :=
  let spec := opDst f.word
  let i := specIndex spec
  match specKind spec with
  | 7 =>
    match r.badTarget i with
    | some ta => let (r, f) := r.faultOp f 3 ta 0; .stop r f
    | none =>
      if (r.p.chan i).ready d.length then .on (r.chanPut i d none) f
      else .stop r { f with wait := .credit i }
  | 3 =>
    let old := leBytes 8 (r.p.getLoc f.sheet i).toNat
    .on { r with p := r.p.setLoc f.sheet i (BitVec.ofNat 64 (leNat (d.map (·.1) ++ old.drop d.length))) } f
  | k =>
    let dir := if k = kNbr then some i else none
    let a := f.addr unit
    let inGroup := decide (r.p.group.state = 1 ∨ r.p.group.state = 2)
    let bad := match r.badAccess dir a d.length with
      | some ta => some ta
      | none => if dir.isSome && inGroup then some (a % 2 ^ 18 + i * 2 ^ 20 + 2 ^ 22) else none
    match bad with
    | some ta => let (r, f) := r.faultOp f 3 ta 0; .stop r f
    | none =>
      match dir with
      | none => .on (r.ownStore f a d) f
      | some k =>
        match (r.nbrs[k]?).getD none with
        | none => .on r f
        | some q => .on { r with nbrs := r.nbrs.set k (some (q.memWrite a d)) } f

/-- Deliver the units that are made and still to leave, one after another. -/
def Run.deliverOut (r : Run) (f : Flight) : List Data → Go
  | [] => .on r { f with out := [] }
  | d :: rest =>
    match r.deliver { f with out := d :: rest } f.outDone d with
    | .on r g => r.deliverOut { g with outDone := f.outDone + 1 } rest
    | .stop r g => .stop r g

/-! ## Tensor (R57-R61, 03 R128-R149, 04 R152-R162) -/

def tensorA (w : W128) : TensorSide :=
  ⟨(Fmt.ofCode (opFmt w)).getD .fp4, blockSize (tpABlock (opParam w)), tpADir (opParam w)⟩
def tensorB (w : W128) : TensorSide :=
  ⟨(Fmt.ofCode (tpFmtB (opParam w))).getD .fp4, blockSize (tpBBlock (opParam w)), tpBDir (opParam w)⟩

/-- The initiation interval of the slower operand (R57, 03 R114); one entry a cycle for operation 0x02 (04 R162). -/
def tensorInterval (w : W128) : Nat :=
  if opCode w = 2 then 1 else max (tensorA w).fmt.initInterval (tensorB w).fmt.initInterval

/-- Place in the operand's stream of the data entry of k-step k, and of its period's scale entry (03 R135). -/
def TensorSide.dataUnit (t : TensorSide) (k : Nat) : Nat :=
  if t.bs = 0 then k / t.fmt.kPerEntry
  else k / (4 * t.bs) * (1 + 4 * t.bs / t.fmt.kPerEntry) + 1 + k % (4 * t.bs) / t.fmt.kPerEntry
def TensorSide.scaleUnit (t : TensorSide) (k : Nat) : Nat := k / (4 * t.bs) * (1 + 4 * t.bs / t.fmt.kPerEntry)

/-- Fetch the entry, and at a period's start its scale entry with it, of one side (03 R138, R139). -/
def Run.fetchSide (r : Run) (f : Flight) (t : TensorSide) (spec k : Nat) (keepData keepScale : Data) :
    Got × Data :=
  if !t.needsData k then (.got r f keepData, keepScale)
  else if t.needsScale k then
    let short := (specKind spec = kQueue ∧ (r.p.queue (specIndex spec)).entries.length < 2)
      ∨ (specKind spec = kRing ∧ r.ringAvail (specIndex spec) < 64)
    if short then (.wait r f, keepScale)
    else match r.fetch f spec (t.scaleUnit k) 32 with
      | .got r f s => (r.fetch f spec (t.dataUnit k) 32, s)
      | g => (g, keepScale)
  else (r.fetch f spec (t.dataUnit k) 32, keepScale)

/-- Resolve the oldest k-steps or entries that are due (R58 cycle 5): those whose resolve cycle comes before `now`, or all. The
answer names a NaN that was made and stops there when the trap is enabled (03 R143, R144). -/
def resolveDue (trap : Bool) (w : W128) (f : Flight) (due : Nat → Bool) : List (Nat × Contrib) → Flight × Option (Nat × Nat)
  | [] => ({ f with pend := [] }, none)
  | (k, c) :: rest =>
    if due k then
      match f.accs with
      | none => ({ f with pend := [] }, none)
      | some a =>
        let (a', bad) := a.resolve (opFpInf w) (tpAnchor (opParam w)) c
        match trap, bad with
        | true, some i => ({ f with pend := (k, c) :: rest }, some (k, i))
        | _, _ => resolveDue trap w { f with accs := some a' } due rest
    else ({ f with pend := (k, c) :: rest }, none)

/-- Put the sums so far into the tile (04 R154), saturated where a sum lies outside the word: R154 says what a tile holds between operations only,
and so what shows of one while its operation waits is a choice (DESIGN CHOICE, log entry 101). -/
def Run.storeTile (r : Run) (f : Flight) : Run :=
  match f.accs with
  | some a => { r with p := r.p.setTile (tileIndex (opDst f.word) f.number) a.toTile }
  | none => r

/-- The NaN words a tensor operation finds in the tile it adds into (03 R141, R147): SOURCE 5, UNIT 0. Operation 0x02 too is taken to find
every word of the tile, also those that a COUNT below 32 adds nothing to (DEDUCED, log entry 73). -/
def tileNan (w : W128) (tile : List W128) : Option Nat :=
  let fp32 := tpAccMode (opParam w) == 1
  ((List.range 64).find? fun i => wordIsNan fp32 ((tile[i]?).getD 0)).map fun i => trapNan 5 0 i

/-- The NaN that step k of a tensor operation consumes (03 R141, R147, R148): a scale or an element of either side, a word of the entry that 0x02
adds, or else, at its first step, a word of the tile it adds into. -/
def tensorConsumed (w : W128) (k : Nat) (tile : List W128) (d : Data) (a b : SideStep) : Option Nat :=
  let old := if k = 0 ∧ (opCode w = 0 ∨ opCode w = 2) then tileNan w tile else none
  if opCode w = 2 then
    let fp32 := tpAccMode (opParam w) == 1
    if wordIsNan fp32 (entryWords d).1 then some (trapNan 3 k (2 * k % 64))
    else if wordIsNan fp32 (entryWords d).2 then some (trapNan 3 k (2 * k % 64 + 1))
    else old
  else match stepNan a b with
    | some (s, e) => some (trapNan s k e)
    | none => old

/-- A NaN that a tensor operation makes no later than in the cycle in which step k meets a fault (03 R148, R149). -/
def madeBy (trap : Bool) (w : W128) (f : Flight) (k : Nat) : Option Nat :=
  match resolveDue trap w f (fun j => decide (j * tensorInterval w + 5 ≤ k * tensorInterval w)) f.pend with
  | (_, some (k0, i)) => some (trapNan 6 k0 i)
  | (_, none) => none

/-- A tensor operation ends at a NaN it made in step k0 (03 R147, R148). -/
def Run.tensorNan (r : Run) (f : Flight) (k0 i : Nat) : Run × Flight := (r.storeTile f).faultData f false (some (trapNan 6 k0 i))

/-- Every step so far resolves, and the sums stand in the tile. -/
def Run.tensorAll (r : Run) (f : Flight) : Run × Flight :=
  match resolveDue r.p.nanTrap f.word f (fun _ => true) f.pend with
  | (f, some (k0, i)) => r.tensorNan f k0 i
  | (f, none) => (r.storeTile f, f)

/-- A tensor operation waits at a pop: meanwhile its earlier steps resolve (log entry 12). -/
def Run.tensorWait (r : Run) (f : Flight) : Run × Flight :=
  let (r, f) := r.tensorAll f
  (r, if f.work then { f with wait := .pop } else f)

/-- What step k reads: the two sides, or for operation 0x02 the entry alone, and the scales of each. -/
def Run.tensorGot (r : Run) (f : Flight) : Got × Got × Data × Data :=
  let w := f.word
  let k := f.done
  if opCode w = 2 then (r.fetch f (opSrcA w) k 32, .got r f [], [], [])
  else if f.aReady then
    let (b, bs) := r.fetchSide f (tensorB w) (opSrcB w) k f.bData f.bScale
    (.got r f f.aData, b, f.aScale, bs)
  else
    match r.fetchSide f (tensorA w) (opSrcA w) k f.aData f.aScale with
    | (.got r f d, s) =>
      let f := { f with aData := d, aScale := s, aReady := true }
      let (b, bs) := r.fetchSide f (tensorB w) (opSrcB w) k f.bData f.bScale
      (.got r f d, b, s, bs)
    | (g, s) => (g, g, s, [])

/-- Step k on the operands it has read, their scales in f: poison and NaNs end the operation (03 R147-R149, 09 R314), or its products await
their cycle; true: the operation goes on. -/
def Run.tensorUse (r : Run) (f : Flight) (dA dB sA : Data) : Bool × Run × Flight :=
  let w := f.word
  let k := f.done
  let ii := tensorInterval w
  let trap := r.p.nanTrap
  let a := (tensorA w).step k dA sA
  let b := (tensorB w).step k dB f.bScale
  let words := entryWords dA
  let poison := if opCode w = 2 then dA.any (·.2) else a.poison || b.poison
  let nan := if trap then tensorConsumed w k (r.p.tile (tileIndex (opDst w) f.number)) dA a b else none
  if poison || nan.isSome then
    (false, (r.storeTile f).faultData { f with pend := [] } poison (match nan with | some n => some n | none => madeBy trap w f k))
  else
    -- a NaN made in this very cycle comes after every consumed one (R148)
    match resolveDue trap w f (fun j => decide (j * ii + 5 ≤ k * ii)) f.pend with
    | (f, some (k0, i)) => (false, r.tensorNan f k0 i)
    | (f, none) =>
      let c : Contrib := if opCode w = 2 then .words k words.1 words.2 else .products (stepProducts a b)
      (true, r, { f with done := k + 1, aReady := false, wait := .none, pend := f.pend ++ [(k, c)] })

/-- One k-step or entry; true: the operation goes on with the next. Nominal cycle of step k is k·II; an operand that is waited for lets every
earlier step resolve first (log entry 12). -/
def Run.tensorStep (r : Run) (f : Flight) : Bool × Run × Flight :=
  let w := f.word
  let k := f.done
  let ii := tensorInterval w
  let trap := r.p.nanTrap
  if opCount w ≤ k then
    let (r, f) := r.tensorAll f
    (false, r, { f with work := false, wait := .none })
  else
    match resolveDue trap w f (fun j => decide (j * ii + 5 < k * ii)) f.pend with
    | (f, some (k0, i)) => (false, r.tensorNan f k0 i)
    | (f, none) =>
      match r.tensorGot f with
      | (.wait r f, _, _) => (false, r.tensorWait f)
      | (.fault r f, _, _) => (false, (r.storeTile f).faultData f false (madeBy trap w f k))
      | (.got _ _ _, .fault r f, _) => (false, (r.storeTile f).faultData f false (madeBy trap w f k))
      | (.got _ _ _, .wait r f, _) => (false, r.tensorWait f)
      | (.got rA fA dA, .got rB fB dB, sA, sB) =>
        if opCode w = 2 then rA.tensorUse fA dA dB sA
        else rB.tensorUse { fB with aScale := sA, bData := dB, bScale := sB } dA dB sA

/-- The k-steps or entries that fuel counts. -/
def Run.tensorGo (r : Run) (f : Flight) : Nat → Run × Flight
  | 0 => (r, f)
  | fuel + 1 =>
    match r.tensorStep f with
    | (true, r, f) => r.tensorGo f fuel
    | (false, r, f) => (r, f)

/-- The tensor unit on an operation in flight. -/
def Run.tensorRun (r : Run) (f : Flight) : Run × Flight := r.tensorGo f (opCount f.word + 1 - f.done)

/-! ## Vector and special functions (R62-R64, 03 R124-R127) -/

/-- The addend of an element of vector FMA, in the operation's format (log entry 11). -/
def fmaAddendOf (f : Fmt) (free i : Nat) : Nat := (Config.fmaAddend (free + i)).toNat % 2 ^ f.bits

/-- Result elements of a vector operation on element lists a and b; `free` is the place of its free values. -/
def vectorElems (w : W128) (free : Nat) (a b : List Nat) : List Nat :=
  let f := (Fmt.ofCode (opFmt w)).getD .fp32
  let inf := opFpInf w
  let arith (g : Num → Num → Num) : List Nat :=
    a.zipWith (fun x y => (f.convert inf false false (g (f.decode x) (f.decode y))).bits) b
  let sign := 2 ^ (f.bits - 1)
  match opCode w with
  | 0 => arith Num.add
  | 1 => arith fun x y => x.add y.neg
  | 2 => arith Num.mul
  | 3 => (a.zipIdx).zipWith (fun xi y =>
      let z := f.decode (fmaAddendOf f free xi.2)
      (f.convert inf false false (((f.decode xi.1).mul (f.decode y)).add z)).bits) b
  | 4 => arith Num.min2
  | 5 => arith Num.max2
  | 6 => a.zipWith (fun x y =>
      (Config.maskElement (opFmt w) (Num.test (opParam w % 8) (f.decode x) (f.decode y))).toNat % 2 ^ f.bits) b
  | 7 => (a.zipIdx).zipWith (fun xi y => if (Config.selectMask free).getLsbD xi.2 then y else xi.1) b
  | 8 => a.map fun x => x % sign
  | 9 => a.map fun x => x ^^^ sign
  | _ =>
    let t := (Fmt.ofCode (opParam w % 64)).getD .fp32
    a.map fun x => (t.convert inf (opIntWrap w) false (f.decode x)).bits

/-- Result elements of a special function (R63, 03 R127). -/
def specialElems (w : W128) (a : List Nat) : List Nat :=
  let inf := opFpInf w
  a.map fun x =>
    let v := Fmt.fp32.decode x
    match opCode w with
    | 0 => sfExp2 inf v
    | 1 => sfLog2 inf v
    | 2 => sfRecip inf v
    | 3 => sfRsqrt inf v
    | 4 => sfSin x
    | _ => sfCos x

/-- Shape of a vector or special-function operation: source format, result format, whether B is read, whether the inputs can be
NaN, issue interval and latency (R62, R63). -/
structure VecShape where
  src : Fmt
  dst : Fmt
  two : Bool
  nanIn : Bool
  gap : Nat
  lat : Nat
  deriving DecidableEq, Repr

def vecShape (w : W128) : VecShape :=
  if opClass w = 3 then ⟨.fp32, .fp32, false, decide (opCode w < 4), 2, 10⟩
  else
    let f := (Fmt.ofCode (opFmt w)).getD .fp32
    let slow := decide (opCode w < 4)
    match opCode w with
    | 10 => ⟨f, (Fmt.ofCode (opParam w % 64)).getD .fp32, false, true, 1, 4⟩
    | 8 | 9 => ⟨f, f, false, true, if f = .fp64 then 2 else 1, if f = .fp64 then 4 else 2⟩
    | 6 | 7 => ⟨f, f, true, true, if f = .fp64 then 2 else 1, if f = .fp64 then 4 else 2⟩
    | _ =>
      if f = .fp64 then ⟨f, f, true, true, if slow then 4 else 2, if slow then 8 else 4⟩
      else ⟨f, f, true, true, 1, 4⟩

def unpackElems (f : Fmt) (n : Nat) (d : Data) : List Nat :=
  let raw := dataNat d
  (List.range n).map (f.elem raw)

/-- The first NaN input of one vector, as TRAP_NAN holds it (03 R141, R147, R148): an element of A, of B, or the addend of an FMA, which is an
input of its own. A compare's mask element is never taken for a NaN result, whatever its encoding (DESIGN CHOICE, log entry 11). -/
def vectorNan (w : W128) (free v : Nat) (a b : List Nat) : Option Nat :=
  let s := vecShape w
  let nanAt (l : List Nat) (src : Nat) : Option Nat := (l.findIdx? fun x => s.src.isNan x).map fun i => trapNan src v i
  let c : List Nat := if opClass w = 2 ∧ opCode w = 3 then (List.range a.length).map (fmaAddendOf s.src free) else []
  if !s.nanIn then none
  else match nanAt a 3 with
    | some x => some x
    | none => match nanAt b 4 with
      | some x => some x
      | none => nanAt c 5

/-- The result elements of one vector; `free` is the place of its free values. -/
def vectorResult (w : W128) (free : Nat) (a b : List Nat) : List Nat := if opClass w = 3 then specialElems w a else vectorElems w free a b

/-- The first NaN result of one vector (03 R141, R147): a conversion to a format without NaN makes one of each NaN it is given. -/
def vectorMade (w : W128) (a res : List Nat) : Option Nat :=
  let s := vecShape w
  if opClass w = 2 ∧ opCode w = 6 then none
  else if opClass w = 2 ∧ opCode w = 10 ∧ s.dst.nanBits.isNone then a.findIdx? fun x => s.src.isNan x
  else res.findIdx? fun x => s.dst.isNan x

/-- Vectors one at a time. A NaN made by a vector is detected at its completion, one consumed at issue (03 R143): while a made
NaN waits for its completion, later vectors issue and are checked, and nothing of them is written (log entry 12). Where one of these meets
another fault first, the made NaN is still detected, in that cycle or later (R148, R149). Each result is delivered before the next vector issues,
so a wait for credit and an address fault at DST come before any later vector's faults, and that fault ends the operation: no rule gives their
cycles (DESIGN CHOICE, log entry 100). -/
def Run.vectorGo (r : Run) (f : Flight) (made : Option (Nat × Nat)) : Nat → Run × Flight
  | 0 => (r, f)
  | fuel + 1 =>
    let w := f.word
    let s := vecShape w
    let n := vecElems s.src s.dst
    let v := f.done
    let trap := r.p.nanTrap
    let stopMade (r : Run) (f : Flight) (m : Nat × Nat) : Run × Flight :=
      r.faultData f false (some (trapNan 6 m.1 m.2))
    let late := match made with
      | some m => decide (m.1 * s.gap + s.lat < v * s.gap)
      | none => false
    let madeNan : Option Nat := made.map fun m => trapNan 6 m.1 m.2
    match made, (late || decide (opCount w ≤ v)) with
    | some m, true => stopMade r f m
    | none, true => (r, { f with work := false, wait := .none })
    | made, false =>
      let gotA : Got := if f.aReady then .got r f f.aData else r.fetch f (opSrcA w) v (vecBytes s.src n)
      match gotA with
      | .fault r f => r.faultData f false madeNan
      | .wait r f => match made with
        | some m => stopMade r f m
        | none => (r, { f with wait := .pop })
      | .got r f dA =>
        let f := { f with aData := dA, aReady := true }
        let gotB : Got := if s.two then r.fetch f (opSrcB w) v (vecBytes s.src n) else .got r f []
        match gotB with
        | .fault r f => r.faultData f false madeNan
        | .wait r f => match made with
          | some m => stopMade r f m
          | none => (r, { f with wait := .pop })
        | .got r f dB =>
          let poison := dA.any (·.2) || dB.any (·.2)
          let a := unpackElems s.src n dA
          let b := if s.two then unpackElems s.src n dB else []
          let nan : Option Nat := if trap then vectorNan w r.free v a b else none
          if poison || nan.isSome then r.faultData f poison (match nan with | some n => some n | none => madeNan)
          else
            let res := vectorResult w r.free a b
            let r := if opClass w = 2 ∧ (opCode w = 3 ∨ opCode w = 7) then { r with free := r.free + n } else r
            let bad := vectorMade w a res
            let f := { f with done := v + 1, aReady := false, aData := [] }
            match made, trap, bad with
            | some m, _, _ => r.vectorGo f (some m) fuel
            | none, true, some i => r.vectorGo f (some (v, i)) fuel
            | none, _, _ =>
              let d := cleanData (s.dst.pack res)
              match r.deliver { f with out := [d] } v d with
              | .on r g => r.vectorGo { g with out := [], outDone := v + 1, wait := .none } none fuel
              | .stop r g => (r, { g with outDone := v })

/-- The vector or special-function unit on an operation in flight: first what is made and waits for credit. -/
def Run.vectorRun (r : Run) (f : Flight) : Run × Flight :=
  match r.deliverOut f f.out with
  | .stop r f => (r, f)
  | .on r f => r.vectorGo { f with wait := .none } none (opCount f.word + 1 - f.done)

/-! ## Move (R79, R221, R227, R556) -/

def Run.moveGo (r : Run) (f : Flight) : Nat → Run × Flight
  | 0 => (r, f)
  | fuel + 1 =>
    let w := f.word
    if opCount w ≤ f.done then (r, { f with work := false, wait := .none })
    else
      match r.fetch f (opSrcA w) f.done (mpUnit (opParam w)) with
      | .fault r f => (r, f)
      | .wait r f => (r, { f with wait := .pop })
      | .got r f d =>
        match r.deliver { f with out := [d], done := f.done + 1 } f.done d with
        | .on r g => r.moveGo { g with out := [], outDone := g.done, wait := .none } fuel
        | .stop r g => (r, { g with outDone := f.done })

def Run.moveRun (r : Run) (f : Flight) : Run × Flight :=
  match r.deliverOut f f.out with
  | .stop r f => (r, f)
  | .on r f => r.moveGo { f with wait := .none } (opCount f.word + 1 - f.done)

/-! ## Edge moves (09 R320-R330) -/

/-- The first faulting edge address of a range, if any (R322, R97): a pointer that breaks R321, then the first address that no
window of the parcel with the needed right holds together with the start. -/
def edgeRangeFault (wins : List EdgeWin) (ptr len : Nat) (write : Bool) : Option Nat :=
  if ptr % 64 ≠ 0 ∨ 2 ^ 40 ≤ ptr then some (ptr % 2 ^ 40)
  else
    let ends := (wins.filter fun v => decide (v.base ≤ ptr ∧ ptr < v.limit) && (!write || v.write)).map (·.limit)
    let far := ends.foldl max 0
    if far = 0 then some ptr
    else if far < ptr + len then some far
    else none

/-- The length of the request that starts at an edge address (R324). -/
def requestLen (a stop : Nat) : Nat := min stop (a / 512 * 512 + 512) - a

/-- Whether a bucket holds a request's bytes (08 R290). -/
def EdgePort.canReserve (e : EdgePort) (c n : Nat) : Bool := decide (n ≤ (e.buckets[c]?).getD 0)

/-- Send a request with a ticket that is held: the ticket is spent, and the bucket too when the request is reserved (R290, R330).
An edge write reads its source units now (R325). -/
def Run.edgeSend (r : Run) (f : Flight) (ptr a len : Nat) (write : Bool) : Got :=
  let c := (edgePlace a).1
  let u0 := (a - ptr) / 64
  let locals := (List.range (len / 64)).map fun i => f.addr (u0 + i)
  let (r, d) := if write then
      locals.foldl (fun (p : Run × Data) off =>
        let (r, d) := p.1.read none off 64
        (r, p.2 ++ d)) (r, [])
    else (r, [])
  let e := r.p.edge
  let res := e.canReserve c len
  let e := { e with tickets := e.tickets.modify c (· - 1), sent := e.sent.modify c (· + 1)
                    buckets := if res then e.buckets.modify c (· - len) else e.buckets }
  let q : EdgeReq := { phys := r.phys, x := r.x, y := r.y, tracker := f.tracker, write := write, addr := a, len := len
                       locals := locals, data := d, reserved := res }
  .got (({ r with p := { r.p with edge := e } }).send ⟨r.here, .emc c, 2, .request c q⟩) f d

/-- Ask a controller for a ticket, at most one ask outstanding, and none while requests carry all four tickets that a plot may hold for it (R329,
R330). -/
def Run.edgeAsk (r : Run) (c len : Nat) : Run :=
  let e := r.p.edge
  if (e.asks[c]?).getD false = true ∨ 4 ≤ (e.sent[c]?).getD 0 then r
  else
    let res := e.canReserve c len
    ({ r with p := { r.p with edge := { e with asks := e.asks.set c true } } }).send ⟨r.here, .emc c, 2, .ask r.phys c res⟩

/-- Requests one after another, each when its controller's ticket is held (R324, R325). `f.done` counts edge bytes sent. -/
def Run.edgeGo (r : Run) (f : Flight) (ptr total : Nat) (write : Bool) : Nat → Run × Flight
  | 0 => (r, f)
  | fuel + 1 =>
    if total ≤ f.done then (r, { f with work := false, wait := .none })
    else
      let a := ptr + f.done
      let len := requestLen a (ptr + total)
      let c := (edgePlace a).1
      if (r.p.edge.tickets[c]?).getD 0 = 0 then (r.edgeAsk c len, { f with wait := .ticket c })
      else match r.edgeSend f ptr a len write with
        | .got r f _ => r.edgeGo { f with done := f.done + len, wait := .none } ptr total write fuel
        | .wait r f => (r, f)
        | .fault r f => (r, f)

def edgeIsRead (w : W128) : Bool := specKind (opSrcA w) == kLoc

/-- Go on with an edge move in flight; the pointer's value as at issue is kept in `aData`. -/
def Run.edgeRun (r : Run) (f : Flight) : Run × Flight :=
  let w := f.word
  r.edgeGo { f with wait := .none } (dataNat f.aData) (64 * opCount w) (!edgeIsRead w) (opCount w + 1)

/-- Issue an edge move (R321, R322, R320 ADV). -/
def Run.edgeStart (r : Run) (f : Flight) : Run × Flight :=
  let w := f.word
  let reg := if edgeIsRead w then specIndex (opSrcA w) else specIndex (opDst w)
  let ptr := (r.p.getLoc f.sheet reg).toNat
  let total := 64 * opCount w
  if r.p.group.state = 1 ∨ r.p.group.state = 2 then r.faultOp f 4 0 0
  else match edgeRangeFault r.p.edge.windows ptr total (!edgeIsRead w) with
    | some a => r.faultOp f 3 (2 ^ 63 + a) 0
    | none =>
      match (List.range (opCount w)).findSome? fun i => r.badAccess none (f.addr i) 64 with
      | some ta => r.faultOp f 3 ta 0
      | none =>
        let reqs := (ptr + total + 511) / 512 - ptr / 512
        let e := r.p.edge
        let t : Tracker := { id := e.nextTracker, left := reqs, signal := mpSignal (opParam w) }
        let p := { r.p with edge := { e with trackers := e.trackers ++ [t], nextTracker := e.nextTracker + 1 } }
        let p := if mpAdv (opParam w) then p.setLoc f.sheet reg (BitVec.ofNat 64 (ptr + total)) else p
        ({ r with p := p }).edgeRun { f with aData := cleanData (leBytes 8 ptr), tracker := t.id }

/-! ## Send (R79, R221, R556, 04 R161, 07 R249, R266, R268) -/

/-- Messages of a send: how many, and bytes each. -/
def sendShape (w : W128) : Nat × Nat := if opCode w = 1 then (32, 32) else (1, spLen (opParam w))

/-- The source unit of a send's next message (R556: memory is read at ADDR, which STRIDE does not move). -/
def Run.sendGot (r : Run) (f : Flight) (len : Nat) : Got :=
  let a := opSrcA f.word
  if specKind a = kMem ∨ specKind a = kNbr then
    let dir := if specKind a = kNbr then some (specIndex a) else none
    match r.badRange dir (opAddr f.word + f.rep) len with
    | some ta => let (r, f) := r.faultOp f 3 ta 0; .fault r f
    | none => let (r, d) := r.read dir (opAddr f.word + f.rep) len; .got r f d
  else r.fetch f a f.done len

/-- One message of a send: its source unit, then credit. -/
def Run.sendGo (r : Run) (f : Flight) : Nat → Run × Flight
  | 0 => (r, f)
  | fuel + 1 =>
    let w := f.word
    let (count, len) := sendShape w
    let ch := specIndex (opDst w)
    if count ≤ f.done then (r, { f with work := false, wait := .none, out := [] })
    else
      let got : Got := match f.out with
        | d :: _ => .got r f d
        | [] => r.sendGot f len
      match got with
      | .fault r f => (r, f)
      | .wait r f => (r, { f with wait := .pop })
      | .got r f d =>
        match r.badTarget ch with
        | some ta => r.faultOp f 3 ta 0
        | none =>
          if (r.p.chan ch).ready len then
            let sig := if f.done + 1 = count then spSignal (opParam w) else none
            (r.chanPut ch d sig).sendGo { f with done := f.done + 1, out := [], wait := .none } fuel
          else (r, { f with out := [d], wait := .credit ch })

/-- A send in a group (R266): credit first, message by message, then it is held. `outDone` counts the credit taken. -/
def Run.holdGo (r : Run) (f : Flight) : Nat → Run × Flight
  | 0 => (r, f)
  | fuel + 1 =>
    let w := f.word
    let (count, len) := sendShape w
    let ch := specIndex (opDst w)
    let g := r.p.group
    if g.state ≠ 1 then (r, { f with work := false, wait := .none })
    else if count ≤ f.done then
      let h : HeldSend := { word := w, number := f.number, sheet := f.sheet, credit := f.outDone }
      ({ r with p := { r.p with group := { g with sends := g.sends ++ [h], heldCount := g.heldCount + 1 } } },
        { f with work := false, wait := .none })
    else
      let c := r.p.chan ch
      if c.closed then r.holdGo { f with done := f.done + 1, wait := .none } fuel
      else if c.ready len then
        let g' := if (g.tails.any fun t => t.1 == ch) then g else { g with tails := g.tails ++ [(ch, c.rtail)] }
        let p := ({ r.p with group := g' }).setChan ch (c.spend len)
        ({ r with p := p }).holdGo { f with done := f.done + 1, outDone := f.outDone + (c.need len).1, wait := .none } fuel
      else (r, { f with wait := .credit ch })

/-- The send unit on an operation in flight: one that issued outside a group goes out, one of the open group is held, and one whose group has
ended without it is discarded, as though it had sent (R266, R268, R269). -/
def Run.sendRun (r : Run) (f : Flight) : Run × Flight :=
  let (count, len) := sendShape f.word
  let a := opSrcA f.word
  let fuel := count + 1 - f.done
  if f.grp = 0 then r.sendGo f fuel
  else if r.p.outlives f then (r, { f with work := false, wait := .none, out := [] })
  else if f.done = 0 ∧ f.wait = .none then
    let k := specKind a
    if ¬ (k = kMem ∨ k = kTile ∨ k = kLoc) then r.faultOp f 4 0 0
    else if r.p.group.state = 2 then (r, { f with work := false })
    else match (if k = kMem then r.badRange none (opAddr f.word + f.rep) len else none), r.badTarget (specIndex (opDst f.word)) with
      | some ta, _ => r.faultOp f 3 ta 0
      | none, some ta => r.faultOp f 3 ta 0
      | none, none =>
        if r.p.group.sends.length ≥ 8 then (r.abortGroup gOverflow 2 false, { f with work := false })
        else r.holdGo f fuel
  else r.holdGo f fuel

/-! ## Ring release (R234) -/

def Run.ringRun (r : Run) (f : Flight) : Run × Flight :=
  match r.ringRelease (specIndex (opSrcA f.word)) (spLen (opParam f.word)) with
  | some r => (r, { f with work := false, wait := .none })
  | none => (r, { f with wait := .pop })

/-! ## Finish (04 R157-R175) -/

/-- An earlier finish has units still to leave (R172). -/
def Plot.finishAhead (p : Plot) (f : Flight) : Bool :=
  p.seq.ops.any fun g => opClass g.word == 7 && g.work && decide (g.id < f.id)

/-- Units that are made leave for DST (R169), behind those of an earlier finish (R172). -/
def Run.finishRun (r : Run) (f : Flight) : Run × Flight :=
  if r.p.finishAhead f then (r, { f with wait := .behind })
  else match r.deliverOut { f with wait := .none } f.out with
  | .stop r f => (r, f)
  | .on r f => (r, { f with work := false, wait := .none })

/-- Issue a finish: the tile is read, worked through, and its units made, or its values join the open generation period. -/
def Run.finishStart (r : Run) (f : Flight) : Run × Flight :=
  let w := f.word
  let par := sheetFin r.p.seq.cache f.sheet
  let o := finOpOf w
  let tile := r.p.tile (tileIndex (opSrcA w) f.number)
  let i1 := (o.loc + 1) % 8
  let res := par.run o tile (r.p.getLoc f.sheet o.loc) (r.p.getLoc f.sheet i1)
  match r.p.nanTrap, res.consumed, res.produced with
  | true, some e, _ => r.faultData f false (some (trapNan 5 0 e))
  | true, none, some e => r.faultData f false (some (trapNan 6 0 e))
  | _, _, _ =>
    let p := if par.normEn then (r.p.setLoc f.sheet o.loc res.loc0).setLoc f.sheet i1 res.loc1
      else if par.act = 10 then r.p.setLoc f.sheet o.loc res.loc0 else r.p
    let pad := Config.unitPad r.free
    let r := { r with p := p, free := r.free + 1 }
    if par.genBlock = 0 then
      r.finishRun { f with out := (par.plainUnits o pad res.vals).map cleanData }
    else
      let t : GenTile := { vals := par.ordered res.vals, fpInf := o.fpInf, intWrap := o.intWrap, rowScales := res.rowScales }
      let old := match p.seq.gen with | some g => g.tiles | none => []
      let tiles := old ++ [t]
      if o.periodEnd || decide (par.genTiles ≤ tiles.length) then
        let r := { r with p := { p with seq := { p.seq with gen := none } } }
        r.finishRun { f with out := (par.periodUnits pad tiles).map cleanData }
      else
        let g : GenPeriod := { tiles := tiles, word := w, sheet := f.sheet, slot := f.slot, rep := f.rep, number := f.number }
        ({ r with p := { p with seq := { p.seq with gen := some g } } }, { f with work := false })

end Sys2Proof.Machine
end

