-- ==== Sys2Proof/Machine/Sequencer.lean ====
section
/-! DEFINITION. The sequencer and steering unit of a plot (spec/02_plots.md R65-R86, R557, spec/05_firing_and_folding.md
R180-R197, spec/07 R245-R275): issue, waits, completion, firings, folds, switches. Each function is one event of one plot; where
the event's conditions do not hold it leaves the plot as it is (log entry 2). -/

namespace Sys2Proof.Machine

/-- The units' classes are exclusive: one operation of a class 1-10 in flight (R61, R74; log entry 13). A finish holds its stage for 8 cycles
only (04 R172): the next one's units leave behind its own. -/
def Plot.unitBusy (p : Plot) (w : W128) : Bool :=
  opClass w != 0 && opClass w != 7 && p.seq.ops.any fun f => opClass f.word == opClass w

/-- Sheet-local registers (0-7) and tiles (8, 9) that an operation reads (R74, 04 R173). -/
def opReads (par : FinPar) (w : W128) (number : Nat) : List Nat :=
  let src (s : Nat) : List Nat :=
    if specKind s = kLoc then [specIndex s] else if specKind s = kTile then [8 + tileIndex s number] else []
  let i := (finOpOf w).loc
  src (opSrcA w) ++ (if opClass w = 1 ∧ opCode w = 2 then [] else src (opSrcB w))
    ++ (if opClass w = 1 ∧ (opCode w = 0 ∨ opCode w = 2) then [8 + tileIndex (opDst w) number] else [])
    ++ (if opClass w = 4 ∧ mpEdge (opParam w) = true then src (opDst w) else [])
    ++ (if opClass w = 7 then (if par.normEn then [i, (i + 1) % 8] else if par.act = 10 then [i] else []) else [])

/-- Registers and tiles that an operation writes. -/
def opWrites (par : FinPar) (w : W128) (number : Nat) : List Nat :=
  let d := opDst w
  let i := (finOpOf w).loc
  (if specKind d = kTile then [8 + tileIndex d number] else [])
    ++ (if specKind d = kLoc ∧ ¬ (opClass w = 4 ∧ mpEdge (opParam w) = true ∧ mpAdv (opParam w) = false) then [specIndex d] else [])
    ++ (if opClass w = 4 ∧ mpEdge (opParam w) = true ∧ mpAdv (opParam w) = true ∧ specKind (opSrcA w) = kLoc
        then [specIndex (opSrcA w)] else [])
    ++ (if opClass w = 7 then (if par.normEn then [i, (i + 1) % 8] else if par.act = 10 then [i] else []) else [])

/-- Whether an operation in flight has read its sources. -/
def Flight.hasRead (f : Flight) : Bool := opClass f.word == 7 || !f.work

/-- R74: an earlier operation in flight that the new one waits for. -/
def Plot.hazard (p : Plot) (par : FinPar) (w : W128) (number : Nat) : Bool :=
  let rd := opReads par w number
  let wr := opWrites par w number
  p.seq.ops.any fun f =>
    ((opWrites par f.word f.number).any rd.contains) || (!f.hasRead && (opReads par f.word f.number).any wr.contains)

/-- The plot may issue: RUNNING or DRAINING and not stopped by a drain's timeout (R207, R201), no switch, not halted by debug but for
one step (R178, R180, 16 R528). -/
def Plot.live (p : Plot) : Bool :=
  (p.st == .running || p.st == .draining) && !p.watch.partialRec && !p.fence && p.seq.switching.isNone && !p.seq.ended

/-- The firing that issues. -/
def Plot.current (p : Plot) : Option Firing := p.seq.firings.find? fun f => !f.issued

/-- Put a firing's new value back. -/
def Plot.setFiring (p : Plot) (f : Firing) : Plot :=
  { p with seq := { p.seq with firings := p.seq.firings.map fun g => if g.id == f.id then f else g } }

/-- The firing after its slot has issued (R182, R195): the inner range of a counted sheet repeats. -/
def Firing.advance (h : Header) (w : W128) (f : Firing) : Firing :=
  if opClass w = 0 ∧ opCode w = 1 then { f with issued := true }
  else
    let f := if opClass w = 0 ∧ opCode w = 2 then { f with switch := true } else f
    if h.counted ∧ f.slot = h.innerLast ∧ f.rep + 1 < h.inner then { f with slot := h.innerFirst, rep := f.rep + 1 }
    else if h.opCount ≤ f.slot + 1 then { f with issued := true }
    else { f with slot := f.slot + 1 }

/-- Bytes a repetition adds to ADDR (R195). -/
def repBytes (h : Header) (f : Firing) : Nat :=
  if h.counted ∧ h.innerFirst ≤ f.slot ∧ f.slot ≤ h.innerLast then f.rep * h.innerStride else 0

/-- A contour operation's leaf: an active leaf of USE 0 or 2 (07 R257). -/
def Slot.programLeaf (s : Slot) : Bool := s.role == 1 && s.active && s.use != 1 && s.use != 3

/-- A leaf that has voted for a group that left without a join: its confirm, or the result it waits for, is still outstanding. -/
def Plot.owesConfirm (p : Plot) (k : Nat) : Bool := p.group.owes == some k || (p.slot k).arrived

/-- Waits at issue beyond R74: an arrive while ARRIVED is 1 (07 R255), an edge move without a free tracker (09 R325), a commit
or join before the group's earlier operations are complete (07 R270, R273), an open on a commit tree whose earlier parcel commit the plot has
still to confirm (log entry 72). -/
def Plot.waitsAtIssue (p : Plot) (w : W128) : Bool :=
  (opClass w == 9 && opCode w != 1 && (p.slot (bitsOf (opParam w) 3 0)).programLeaf
      && (p.slot (bitsOf (opParam w) 3 0)).arrived)
    || (opClass w == 4 && mpEdge (opParam w) && decide (8 ≤ p.edge.trackers.length))
    || (opClass w == 10 && (opCode w == 1 || opCode w == 3) && p.group.state != 0
        && p.seq.ops.any fun f => decide (p.group.opened ≤ f.id))
    || (opClass w == 10 && opCode w == 0 && (opParam w).testBit 4 && p.owesConfirm (bitsOf (opParam w) 3 0))

/-- A new operation in flight. -/
def Plot.newFlight (p : Plot) (f : Firing) (h : Header) (w : W128) : Flight :=
  { id := p.seq.next, firing := f.id, sheet := f.sheet, slot := f.slot, rep := repBytes h f, number := f.number, word := w
    trapA := p.trapOpnd (opSrcA w), trapB := p.trapOpnd (opSrcB w), done := 0, accs := none, pend := [], aData := []
    aScale := [], bData := [], bScale := [], aReady := false, part := [], out := [], outDone := 0
    wait := .none, work := true, tracker := 0
    grp := if p.group.state = 0 ∨ p.group.step ≠ 0 then 0 else p.group.opened + 1 }

/-- Contour operations (07 R255, R257): the flight stays while it waits. -/
def Run.contourStart (r : Run) (f : Flight) : Run × Flight :=
  let k := bitsOf (opParam f.word) 3 0
  let s := r.p.slot k
  if !s.programLeaf then r.faultOp f 4 0 0
  else
    let r := if opCode f.word = 1 then r else r.arrive k (bitsOf (opParam f.word) 19 4)
    if opCode f.word = 0 then (r, { f with work := false })
    else if (r.p.slot k).arrived then (r, { f with wait := .contour })
    else ({ r with p := r.p.putResult f.sheet f.word (r.p.slot k).resultWord }, { f with work := false })

/-- Carry out the decision of a parcel commit (07 R273 steps 2-4): 0 commits, anything else and MEMBER_LOST aborts. -/
def Run.joinDecide (r : Run) : Run :=
  let g := r.p.group
  let s := r.p.slot g.slot
  let r :=
    if s.result = 0 ∧ s.status = 0 ∧ g.state = 1 then
      let r := { r with p := { r.p with group := { g with state := 3 } } }
      r.commitGroup
    else
      let p := if g.state = 1 then r.p.dropGroup else r.p
      let g' := p.group.flag gVoteAbort
      { r with p := { p with group := { g' with state := 2 } } }
  let r := { r with p := { r.p with group := { r.p.group with step := 4 } } }
  r.arrive g.slot 0

/-- Commit operations (07 R263-R273). -/
def Run.commitStart (r : Run) (f : Flight) : Run × Flight :=
  let w := f.word
  let g := r.p.group
  let fin (r : Run) (status : Nat) : Run × Flight :=
    let v := commitWord status g.used g.heldCount
    ({ r with p := (r.p.closeGroup status).putResult f.sheet w v }, { f with work := false })
  match opCode w with
  | 0 =>
    let k := bitsOf (opParam w) 3 0
    let parcel := (opParam w).testBit 4
    let s := r.p.slot k
    if g.state ≠ 0 ∨ (parcel = true ∧ ¬ (s.role = 1 ∧ s.active = true ∧ s.use = 3)) then r.faultOp f 4 0 0
    else
      ({ r with p := { r.p with group :=
        { g with state := 1, parcel := parcel, slot := k, voted := false, stores := [], sends := [], tails := []
                 firing := f.firing, opened := f.id, overflowed := false, step := 0, used := 0, heldCount := 0 } } },
        { f with work := false })
  | 1 =>
    if g.state = 0 ∨ g.parcel = true then r.faultOp f 4 0 0
    else if g.state = 2 then fin r (if g.overflowed then 2 else 1)
    else fin (r.commitGroup) 0
  | 2 =>
    if g.state = 0 then r.faultOp f 4 0 0
    else
      let spilt := g.overflowed
      let vote := g.parcel && !g.voted
      let r := if g.state = 1 then { r with p := r.p.dropGroup } else r
      let r := if vote then r.arrive g.slot 1 else r
      let (r, f) := fin r (if spilt then 2 else 1)
      (if g.parcel then { r with p := { r.p with group := { r.p.group with owes := some g.slot } } } else r, f)
  | _ =>
    if g.state = 0 ∨ g.parcel = false then r.faultOp f 4 0 0
    else
      let r := if g.voted then r else r.arrive g.slot (if g.state = 2 then 1 else 0)
      ({ r with p := { r.p with group := { r.p.group with voted := true, step := 2 } } }, { f with wait := .join })

/-- An operation at its unit for the first time. -/
def Run.startOp (r : Run) (f : Flight) : Run × Flight :=
  let w := f.word
  let inGroup := decide (r.p.group.state = 1 ∨ r.p.group.state = 2)
  if opIllegal w then r.faultOp f 4 0 0
  else if inGroup && specKind (opDst w) == kChan && opClass w != 5 then r.faultOp f 4 0 0
  else match opClass w with
    | 0 => (r, { f with work := false })
    | 1 =>
      let i := tileIndex (opDst w) f.number
      let r := if opCode w = 1 ∨ opCode w = 3 then { r with p := r.p.setTile i zeroTile } else r
      if opCode w = 3 then (r, { f with work := false })
      else r.tensorRun { f with accs := some (Accs.ofTile (tpAccMode (opParam w) == 1) (r.p.tile i)) }
    | 2 => r.vectorRun f
    | 3 => r.vectorRun f
    | 4 => if mpEdge (opParam w) then r.edgeStart f else r.moveRun f
    | 5 => r.sendRun f
    | 6 => r.ringRun f
    | 7 => r.finishStart f
    | 8 =>
      let b := bitsOf (opParam w) 4 0
      let v := bitsOf (opParam w) 20 5
      match opCode w with
      | 0 => ({ r with p := r.p.beaconAdd b v }, { f with work := false })
      | 2 => ({ r with p := r.p.beaconSet b v }, { f with work := false })
      | _ => (r, { f with wait := .beacon })
    | 9 => r.contourStart f
    | _ => r.commitStart f

/-- Operations that are complete as soon as they have issued without waiting: control, beacon, contour and commit. -/
def endsAtIssue (w : W128) : Bool := opClass w == 0 || decide (8 ≤ opClass w)

/-- Which row of the opcode table an operation word is: class and operation, edge moves told apart by direction. A word whose
class or operation is reserved is no row's own: whatever operation row comes meets it, and it is illegal (R81). -/
def rowMatches (cls op : Nat) (edge : Option Bool) (w : W128) : Bool :=
  let named := match opClass w with
    | 0 => decide (opCode w ≤ 2)
    | 1 => decide (opCode w ≤ 3)
    | 2 => decide (opCode w ≤ 10)
    | 3 => decide (opCode w ≤ 5)
    | 4 => opCode w == 0
    | 5 => decide (opCode w ≤ 1)
    | 6 => opCode w == 0
    | 7 => opCode w == 0
    | 8 => decide (opCode w ≤ 2)
    | 9 => decide (opCode w ≤ 2)
    | 10 => decide (opCode w ≤ 3)
    | _ => false
  !named || (opClass w == cls && opCode w == op
    && (match edge with
        | none => !(cls == 4 && mpEdge (opParam w))
        | some rd => mpEdge (opParam w) && edgeIsRead w == rd))

/-- An operation that has issued is in flight; one that is complete at issue is not. -/
def Run.addFlight (r : Run) (f : Flight) : Run :=
  if endsAtIssue f.word && !f.work then r
  else { r with p := { r.p with seq := { r.p.seq with ops := r.p.seq.ops ++ [f] } } }

/-- Put an operation's flight back after it has gone on. -/
def Run.keepFlight (r : Run) (f : Flight) : Run :=
  { r with p := { r.p with seq := { r.p.seq with ops := r.p.seq.ops.map fun g => if g.id == f.id then f else g } } }

/-- The operation in turn, if it may issue now: its firing, header, word. -/
def Plot.issuable (p : Plot) : Option (Firing × Header × W128) :=
  if !p.live || (p.seq.halted && !p.seq.stepOne) then none
  else match p.current with
    | none => none
    | some f =>
      let h := sheetHeader p.seq.cache f.sheet
      let w := sheetOp p.seq.cache f.sheet f.slot
      let par := sheetFin p.seq.cache f.sheet
      let holds := p.seq.ops.any fun g => g.wait == .beacon
      if holds || p.unitBusy w || p.hazard par w f.number || (!opIllegal w && p.waitsAtIssue w) then none
      else some (f, h, w)

/-- Issue an operation word as the slot in turn. -/
def Run.issueWord (r : Run) (f : Firing) (h : Header) (w : W128) : Run :=
  let fl := r.p.newFlight f h w
  let p := r.p.setFiring (f.advance h w)
  let p := { p with seq := { p.seq with next := p.seq.next + 1, stepOne := false }, watch := { p.watch with moved := true } }
  let (r, fl) := ({ r with p := p }).startOp fl
  r.addFlight fl

/-- Issue the slot in turn as one row's operation (R74). -/
def Run.issue (r : Run) (cls op : Nat) (edge : Option Bool) : Run :=
  match r.p.issuable with
  | none => r
  | some (f, h, w) => if rowMatches cls op edge w then r.issueWord f h w else r

/-- A waiting operation goes on (R75, R220). -/
def Run.goOn (r : Run) (f : Flight) : Run :=
  let (r, f) := match opClass f.word with
    | 1 => r.tensorRun { f with wait := .none }
    | 2 => r.vectorRun f
    | 3 => r.vectorRun f
    | 4 => if mpEdge (opParam f.word) then r.edgeRun f else r.moveRun f
    | 5 => r.sendRun f
    | 6 => r.ringRun f
    | 7 => r.finishRun f
    | _ => (r, f)
  r.keepFlight f

def Plot.flight (p : Plot) (id : Nat) : Option Flight := p.seq.ops.find? fun f => f.id == id

/-- Operations already issued go on in a faulted plot too (R87). -/
def Plot.opsLive (p : Plot) : Bool := p.st == .running || p.st == .draining || p.st == .faulted

def Run.popResume (r : Run) (id : Nat) : Run :=
  match r.p.flight id with
  | some f => if f.work && f.wait == .pop && r.p.opsLive then r.goOn f else r
  | none => r

def Run.creditResume (r : Run) (id : Nat) : Run :=
  match r.p.flight id with
  | some f =>
    match f.wait with
    | .credit _ => if f.work && r.p.opsLive then r.goOn f else r
    | .behind => if f.work && r.p.opsLive then r.goOn f else r
    | .ticket _ => if f.work && r.p.opsLive then r.goOn f else r
    | _ => r
  | none => r

/-- Close a reader (06 R236): what it holds stays, its writer gets a close notice. -/
def Run.closeReader (r : Run) (reader : Nat) : Run :=
  let p := if reader < 16 then r.p.setQueue reader { r.p.queue reader with closed := true }
    else r.p.setRing (reader - 16) { r.p.ring (reader - 16) with closed := true }
  let r := { r with p := p }
  match p.writer reader with
  | some w => r.send ⟨r.here, w.place r.dev, 3, .close w⟩
  | none => r

/-- The plot ends through its current sheet (R189): the named readers close, the plot enters QUIESCENT from RUNNING. -/
def Run.endPlot (r : Run) : Run :=
  let h := sheetHeader r.p.seq.cache r.p.seq.cur
  let r := (List.range 16).foldl (fun (r : Run) n => if h.closeQ.testBit n then r.closeReader n else r) r
  let r := (List.range 8).foldl (fun (r : Run) n => if h.closeR.testBit n then r.closeReader (16 + n) else r) r
  let seq := { r.p.seq with ended := true, target := none }
  if r.p.st == .running then ({ r with p := { r.p with seq := seq, st := .quiescent } }).leaveRunning
  else { r with p := { r.p with seq := seq } }

/-- A plot whose target is its end ends once every operation is complete and no generation period is open (R189, 04 R171). -/
def Run.endIfLeft (r : Run) : Run :=
  let q := r.p.seq
  if q.target = some 8 ∧ q.gen = none ∧ q.ops = [] ∧ q.firings = [] ∧ (r.p.st = .running ∨ r.p.st = .draining) then r.endPlot else r

/-- Remove a complete operation (R74, R182); a contour wait completes once ARRIVED is 0, and writes the result word (07 R255). -/
def Run.complete (r : Run) (id : Nat) : Run :=
  match r.p.flight id with
  | none => r
  | some f =>
    let drop (p : Plot) : Plot := { p with seq := { p.seq with ops := p.seq.ops.filter fun g => g.id != id } }
    if !f.work then ({ r with p := drop r.p }).endIfLeft
    else if f.wait == .contour then
      let s := r.p.slot (bitsOf (opParam f.word) 3 0)
      if s.arrived then r else { r with p := drop (r.p.putResult f.sheet f.word s.resultWord) }
    else r

/-- A beacon wait completes in the first cycle its condition holds (07 R245, R246). -/
def Run.beaconDone (r : Run) : Run :=
  match r.p.seq.ops.find? fun f => f.wait == .beacon with
  | none => r
  | some f =>
    if reached (r.p.beacon (bitsOf (opParam f.word) 4 0)) (bitsOf (opParam f.word) 20 5) then
      { r with p := { r.p with seq := { r.p.seq with ops := r.p.seq.ops.filter fun g => g.id != f.id } } }
    else r

/-- The join in flight. -/
def Plot.joining (p : Plot) : Option Flight := p.seq.ops.find? fun f => f.wait == .join

/-- A plot whose group left a parcel commit without a join has its decision, and arrives in the confirm phase (07 R273, R276; log entry 72). -/
def Run.confirmOwed (r : Run) : Run :=
  match r.p.group.owes with
  | none => r
  | some k =>
    if (r.p.slot k).arrived then r
    else ({ r with p := { r.p with group := { r.p.group with owes := none } } }).arrive k 0

/-- The decision has returned (07 R273 steps 2-4, R275): the plot carries it out, faulted or not; one whose group has left confirms. -/
def Run.joinDecision (r : Run) : Run :=
  if r.p.joining.isSome && r.p.group.step == 2 then
    (if (r.p.slot r.p.group.slot).arrived then r else r.joinDecide)
  else r.confirmOwed

/-- A join has what its next step takes, or the plot its confirm: the leaf of its tree has the result (07 R273, R275). -/
def Plot.joinCanGo (p : Plot) : Bool :=
  (p.joining.isSome && (p.group.step == 2 || p.group.step == 4) && !(p.slot p.group.slot).arrived)
    || p.group.owes.any fun k => !(p.slot k).arrived

/-- A group that nothing completes any more ends, as aborted where it has not committed; one that has carried out a decision is torn (07 R277). -/
def Plot.leaveGroup (p : Plot) (status : Nat) : Plot :=
  let g := p.group
  let p := if g.state = 1 then p.dropGroup else p
  let p := if g.step = 4 then { p with group := p.group.flag gTorn } else p
  p.closeGroup (if g.overflowed then 2 else status)

/-- A join that neither the decision nor the confirm phase will complete any more is given up when the plot's drain ends (07 R276, R277). -/
def Run.giveUpJoin (r : Run) : Run :=
  match r.p.joining with
  | none => r
  | some f =>
    let p := r.p.leaveGroup 3
    { r with p := { p with seq := { p.seq with ops := p.seq.ops.filter fun x => x.id != f.id } } }

/-- The confirm phase has returned (07 R273 step 5, R271, R277): the join completes and writes its word. -/
def Run.joinConfirm (r : Run) : Run :=
  match r.p.joining with
  | none => r
  | some f =>
    let g := r.p.group
    let s := r.p.slot g.slot
    if g.step == 4 && !s.arrived then
      let status := if g.overflowed then 2 else if g.state = 3 ∧ s.status ≠ 2 then 0 else 3
      let v := commitWord status g.used g.heldCount
      let p := if s.status = 2 then { r.p with group := g.flag gTorn } else r.p
      let p := (p.closeGroup status).putResult f.sheet f.word v
      { r with p := { p with seq := { p.seq with ops := p.seq.ops.filter fun x => x.id != f.id } } }
    else r

/-! ## Firings and folds (05 R180-R197) -/

/-- The native firing rule's data and room (R180): masks over queues, rings and channels. -/
def Plot.ruleHolds (p : Plot) (h : Header) : Bool :=
  ((List.range 16).all fun n => !h.inQ.testBit n || !(p.queue n).entries.isEmpty)
    && ((List.range 8).all fun n => !h.inR.testBit n || decide (0 < (p.ring n).msgs))
    && ((List.range 16).all fun n => !h.outC.testBit n || (p.chan n).closed || decide (0 < (p.chan n).credit))

/-- No firing issues, and none that ended a visit is incomplete (R180, R196). -/
def Plot.betweenFirings (p : Plot) : Bool :=
  p.current.isNone && p.seq.target.isNone && p.seq.firings.all fun f => !(f.ends || f.switch)

/-- Whether a native firing of the current sheet may begin (R180). -/
def Plot.mayFire (p : Plot) : Bool :=
  let h := sheetHeader p.seq.cache p.seq.cur
  p.live && !p.seq.halted && p.betweenFirings && !h.counted && p.ruleHolds h

/-- Whether an outer iteration may begin (R196, R204). -/
def Plot.mayIterate (p : Plot) : Bool :=
  let h := sheetHeader p.seq.cache p.seq.cur
  p.live && !p.seq.halted && p.betweenFirings && h.counted && p.st == .running

/-- A firing or outer iteration begins (R181, R183, R193, R102). IN_VISIT has 16 bits and no rule for more firings in a visit: it wraps (DESIGN
CHOICE, log entry 77). -/
def Run.begin (r : Run) : Run :=
  let p := r.p
  let s := p.seq.cur
  let h := sheetHeader p.seq.cache s
  let number := (p.seq.fires[s]?).getD 0
  let inVisit := (p.seq.inVisit + 1) % 65536
  let ends := if h.counted then inVisit == h.outer else h.foldEn && inVisit == h.visit
  let f : Firing := { id := p.seq.next, sheet := s, number := number, slot := 0, rep := 0, issued := false, switch := false
                      ends := ends }
  let p := p.traceEvent r.cycle 0 s 0
  let seq := { p.seq with next := p.seq.next + 1, fires := p.seq.fires.set s ((number + 1) % 2 ^ 32), inVisit := inVisit
                          firings := p.seq.firings ++ [f] }
  { r with p := ({ p with seq := seq, watch := { p.watch with moved := true } }).bump cFire 1 }

def Run.firingBegin (r : Run) : Run := if r.p.mayFire then r.begin else r
def Run.iterationBegin (r : Run) : Run := if r.p.mayIterate then r.begin else r

/-- The target that R188 chooses for a visit that ends: the sheet, 8 the end of the plot; and the visit count after, which has 16 bits and, with
EXIT_AFTER 0, no rule for more visits: it wraps (DESIGN CHOICE, log entry 77). -/
def foldTarget (h : Header) (visits : Nat) : Nat × Nat :=
  let v := (visits + 1) % 65536
  if h.exitAfter ≠ 0 ∧ v = h.exitAfter then (h.exit, 0) else (h.next, v)

/-- A visit ends (R188, R197): the plot takes its target. -/
def Run.endVisit (r : Run) : Run :=
  let p := r.p
  let s := p.seq.cur
  let h := sheetHeader p.seq.cache s
  let (t, v) := foldTarget h ((p.seq.visits[s]?).getD 0)
  let plain := h.counted && !h.foldEn
  let t := if plain then 8 else t
  let seq := if plain then p.seq else { p.seq with visits := p.seq.visits.set s v }
  let r := { r with p := { p with seq := { seq with target := some t } } }
  r.endIfLeft

/-- The oldest firing completes when it has issued and no operation of it is left (R182); a group it opened and left open is
aborted first (07 R269). -/
def Run.completeFiring (r : Run) (counted : Bool) : Run :=
  match r.p.seq.firings with
  | [] => r
  | f :: rest =>
    let h := sheetHeader r.p.seq.cache f.sheet
    if h.counted ≠ counted ∨ f.issued = false ∨ (r.p.seq.ops.any fun g => g.firing == f.id) then r
    else
      let r := { r with p := { r.p with seq := { r.p.seq with firings := rest } } }
      let r := if r.p.group.firing = f.id ∧ (r.p.group.state = 1 ∨ r.p.group.state = 2) then r.abortGroup gUnclosed 4 true else r
      if (f.ends || f.switch) && (r.p.st == .running || r.p.st == .draining) then r.endVisit else r

/-- Trap source of a fault of the sheet as a whole (R97, R557), and of a steering rule, which no operation issues (R39; log entry 75). -/
def Plot.sheetTrap (p : Plot) (s : Nat) : TrapSrc := ⟨s, 63, (p.seq.fires[s]?).getD 0, 0, 0⟩

/-- Save tiles on leaving a sheet (R73). -/
def Plot.saveTiles (p : Plot) (h : Header) : Plot :=
  let p := if h.saveT0 then p.memWrite h.accSlot (cleanData (tileBytes p.tile0)) else p
  if h.saveT1 then p.memWrite (h.accSlot + 0x400) (cleanData (tileBytes p.tile1)) else p

/-- Restore tiles on entering a sheet (R73, 04 R159). -/
def Plot.loadTiles (p : Plot) (h : Header) : Plot :=
  let get (p : Plot) (a : Nat) : Plot × List W128 :=
    let (p, d) := p.memRead a 1024
    (p, tileOfBytes 64 (d.map (·.1)))
  let p := if h.saveT0 then (let (p, t) := get p h.accSlot; { p with tile0 := t }) else p
  if h.saveT1 then (let (p, t) := get p (h.accSlot + 0x400); { p with tile1 := t }) else p

/-- A sheet switch begins (R72, R557): every operation complete, no generation period open. -/
def Run.switchBegin (r : Run) : Run :=
  let p := r.p
  match p.seq.target with
  | none => r
  | some t =>
    if 8 ≤ t ∨ p.live = false ∨ p.seq.ops ≠ [] ∨ p.seq.firings ≠ [] ∨ p.seq.gen.isSome then r
    else if sheetBad p.seq.cache t then
      ({ r with p := { p with seq := { p.seq with target := none } } }).fault 4 (p.sheetTrap t) 0 0
    else
      let p := p.saveTiles (sheetHeader p.seq.cache p.seq.cur)
      let p := p.traceEvent r.cycle 1 t 0
      { r with p := { p with seq := { p.seq with switching := some t } } }

/-- The switch is over: the incoming sheet's tiles are restored, a visit of it begins (R72, R73, R188). -/
def Run.switchDone (r : Run) : Run :=
  match r.p.seq.switching with
  | none => r
  | some t =>
    let p := r.p.loadTiles (sheetHeader r.p.seq.cache t)
    { r with p := { p with seq := { p.seq with cur := t, inVisit := 0, switching := none, target := none } } }

/-- The cycles a switch takes (R72). -/
def switchCycles (out inc : Header) : Nat :=
  let n (b : Bool) : Nat := if b then 16 else 0
  4 + n out.saveT0 + n out.saveT1 + n inc.saveT0 + n inc.saveT1

/-- The operation in flight that a close without a finish makes: its units, for the DST of the last finish that supplied the period (04 R171). It
belongs to no firing. -/
def Plot.closeFlight (p : Plot) (g : GenPeriod) (out : List Data) : Flight :=
  let f := p.newFlight
    { id := p.seq.next, sheet := g.sheet, number := g.number, slot := g.slot, rep := 0, issued := true, switch := false, ends := false }
    (sheetHeader p.seq.cache g.sheet) g.word
  { f with rep := g.rep, out := out, grp := 0 }

/-- An open generation period that no finish closes (04 R171): when a target waits, or while draining, its units leave for the
DST of the last finish that supplied it. Those that cannot leave at once stay as an operation in flight, and what the close came before waits for
it. -/
def Run.flushPeriod (r : Run) : Run :=
  match r.p.seq.gen with
  | none => r
  | some g =>
    let idle := r.p.seq.ops.isEmpty && r.p.seq.firings.isEmpty
    if !(idle && (r.p.st == .running || r.p.st == .draining) && (r.p.seq.target.isSome || r.p.st == .draining)) then r
    else
      let par := sheetFin r.p.seq.cache g.sheet
      let out := (par.periodUnits (Config.unitPad r.free) g.tiles).map cleanData
      let fl := r.p.closeFlight g out
      let seq := { r.p.seq with gen := none, next := r.p.seq.next + 1 }
      let (r, fl) := ({ r with p := { r.p with seq := seq }, free := r.free + 1 }).finishRun fl
      if fl.work then { r with p := { r.p with seq := { r.p.seq with ops := r.p.seq.ops ++ [fl] } } } else r.endIfLeft

/-! ## Steering (R65, R66, R184, R185) -/

def Plot.steerRule (p : Plot) (rule : Nat) : Steer :=
  let h := sheetHeader p.seq.cache p.seq.cur
  if rule = 0 then h.steer0 else h.steer1

/-- Bits [1:0] of byte 0 of a token. -/
def tokenBits (d : Data) : Nat := (dataByte d 0).1.toNat % 4

/-- The channel that a rule whose heads are there puts its output on; none while a head is missing, and for a token that is discarded. -/
def Plot.steerTo (p : Plot) (s : Steer) : Option Nat :=
  match (p.queue s.t).entries with
  | [] => none
  | tok :: _ =>
    let b := tokenBits tok
    match s.kind with
    | 1 => if (p.queue s.d0).entries.isEmpty ∨ 2 ≤ b then none else some (if b = 0 then s.c0 else s.c1)
    | 2 => if (p.queue (if b % 2 = 0 then s.d0 else s.d1)).entries.isEmpty then none else some s.c0
    | _ => none

/-- Whether a rule can fire now, and the channel it waits on if credit alone is missing. -/
def Plot.steerState (p : Plot) (s : Steer) : Bool × Option Nat :=
  match (p.queue s.t).entries with
  | [] => (false, none)
  | tok :: _ =>
    let b := tokenBits tok
    match s.kind with
    | 1 =>
      if (p.queue s.d0).entries.isEmpty then (false, none)
      else if 2 ≤ b then (true, none)
      else
        let c := if b = 0 then s.c0 else s.c1
        if (p.chan c).ready 32 then (true, none) else (false, some c)
    | 2 =>
      let d := if b % 2 = 0 then s.d0 else s.d1
      if (p.queue d).entries.isEmpty then (false, none)
      else if (p.chan s.c0).ready 32 then (true, none) else (false, some s.c0)
    | _ => (false, none)

/-- Steering is live beside firing (R184). -/
def Plot.steerLive (p : Plot) : Bool := p.live && !p.seq.halted

/-- A steering rule fires (R65, R66): an output to a plot that does not exist is an address fault, and nothing is popped or sent (R39). A rule
that names one queue both as T and as its data queue, whose one entry is the token, pops it and finds no data (log entry 76). -/
def Run.steer (r : Run) (kind rule : Nat) : Run :=
  let s := r.p.steerRule rule
  if s.kind ≠ kind ∨ r.p.steerLive = false then r
  else match (r.p.steerTo s).bind r.badTarget with
  | some ta => r.fault 3 (r.p.sheetTrap r.p.seq.cur) ta 0
  | none =>
  if (r.p.steerState s).1 = false then r
  else match r.popQueue s.t with
    | none => r
    | some (r, tok) =>
      let b := tokenBits tok
      let d := if kind = 1 then s.d0 else if b % 2 = 0 then s.d0 else s.d1
      match r.popQueue d with
      | none => r
      | some (r, e) =>
        let r := { r with p := { r.p with watch := { r.p.watch with moved := true } } }
        if kind = 1 then
          if 2 ≤ b then r else r.chanPut (if b = 0 then s.c0 else s.c1) e none
        else r.chanPut s.c0 e none

/-- The gate opening moves a plot to RUNNING and checks its current sheet (R178, R557). -/
def Run.enterRunning (r : Run) : Run :=
  let r := { r with p := { r.p with st := .running } }
  let s := r.p.seq.cur
  if sheetBad r.p.seq.cache s then r.fault 4 (r.p.sheetTrap s) 0 0 else r

/-- A difference between the two sequencer copies (R86): nothing of the cycle takes effect, the plot faults. The record names
the slot in turn; between firings, where no operation is in turn, it names the sheet with SLOT 0 (R97 gives no operation index there: DESIGN
CHOICE, log entry 96). -/
def Run.mismatch (r : Run) : Run :=
  if r.p.st ≠ .running ∧ r.p.st ≠ .draining then r
  else
    let s := r.p.seq.cur
    let src : TrapSrc := match r.p.current with
      | some f =>
        let w := sheetOp r.p.seq.cache f.sheet f.slot
        ⟨f.sheet, f.slot, f.number, r.p.trapOpnd (opSrcA w), r.p.trapOpnd (opSrcB w)⟩
      | none => ⟨s, 0, (r.p.seq.fires[s]?).getD 0, 0, 0⟩
    ({ r with p := { r.p with seq := { r.p.seq with mismatched := true } } }).fault 1 src 0 0

/-! ## Quiescence (05 R205) -/

/-- A plot is quiescent (05 R205): faulted, or nothing part-way in it and it has ended or has nothing going on. A message it has
begun to send that waits for credit is an operation in flight. Neither R180 nor a steering rule (R184) holds but in RUNNING or DRAINING. -/
def Plot.quiescentNow (p : Plot) : Bool :=
  let h := sheetHeader p.seq.cache p.seq.cur
  let fires := p.st == .running || p.st == .draining
  p.st == .faulted ||
    ((p.rings.all fun g => g.landing.isNone) &&
      (p.seq.ended ||
        (p.seq.ops.isEmpty && p.seq.firings.isEmpty && p.seq.switching.isNone && p.seq.target.isNone && p.seq.gen.isNone
          && (h.counted || !(fires && p.ruleHolds h))
          && !(fires && ((p.steerState h.steer0).1 || (p.steerState h.steer1).1))
          && p.group.state == 0 && p.edge.trackers.isEmpty && !p.seq.halted)))

end Sys2Proof.Machine
end

