-- ==== Sys2Proof/Machine/PlotArrive.lean ====
section
/-! DEFINITION. What arrives at one plot: messages at queues and rings, grants and notices at channels, tickets and completions
(spec/06 R223-R241, R558, spec/09 R326-R332, spec/10 R352). The answer's Bool says that the packet was discarded and counts in
the field's NET_DISCARD. -/

namespace Sys2Proof.Machine

/-- Readers of a plot that is IDLE or in TEST are reset readers (R238). -/
def Plot.isReset (p : Plot) : Bool := p.st == .idle || p.st == .test

/-- A message's sender is the reader's named writer (10 R352). A port's message carries its stream in `srcX`. -/
def Writer.sent (w : Writer) (m : Message) : Bool :=
  match w with
  | .channel d x y c _ => !m.srcPort && m.srcDev == d && m.srcX == x && m.srcY == y && m.srcCh == c
  | .stream p s => m.srcPort && m.srcCh == p && m.srcX == s

/-- A message reaches a queue (R226, R236, R238, R558, R250). -/
def Run.queueArrive (r : Run) (m : Message) : Run × Bool :=
  let p := r.p
  let q := p.queue m.index
  if p.isReset then (r, false)
  else match p.writer m.index with
    | none => (r, true)
    | some w =>
      if !w.sent m then (r, true)
      else if q.closed then (r.send ⟨r.here, w.place r.dev, 3, .drop w⟩, false)
      else if 16 ≤ q.entries.length ∨ 32 < m.data.length then (r, true)
      else
        let p := (p.landQueue m.index m.data).applySignal m.signal
        ({ r with p := { p with watch := { p.watch with moved := true } } }, false)

/-- A header unit (R232). -/
def ringHeaderBytes (len kind number source sourceCh : Nat) : Data :=
  cleanData (leBytes 2 len ++ leBytes 2 kind ++ leBytes 4 number ++ leBytes 8 source ++ leBytes 16 sourceCh)

/-- A ring message arrives (R230, R233): its first packet places it and reserves its units and any skip; its payload is written as its packets come,
so that a message short of a flit (08 R308) leaves there what has come. A ring with ENABLE 0 takes it as any other: no rule says otherwise (DESIGN
CHOICE, log entry 97). -/
def Run.ringStart (r : Run) (m : Message) : Run × Bool :=
  let p := r.p
  let g := p.ring m.index
  let reader := 16 + m.index
  if p.isReset then (r, false)
  else match p.writer reader with
    | none => (r, true)
    | some w =>
      let size := ringUnits g.rsz
      let (start, skip) := placeIn size g.tail m.data.length
      let f := 1 + (m.data.length + 31) / 32
      if !w.sent m then (r, true)
      else if g.closed then (r.send ⟨r.here, w.place r.dev, 3, .drop w⟩, false)
      else if size < g.used + skip + f ∨ size < 2 * f ∨ m.data.isEmpty then (r, true)
      else
        let p := if skip = 0 then p else p.memWrite (g.base + 32 * g.tail) (ringHeaderBytes 0 1 0 0 0)
        let p := p.memWrite (g.base + 32 * (start + 1)) m.data
        let free := skip ≠ 0 ∧ g.used = 0 ∧ g.head = g.tail
        let g' : Ring := { g with used := g.used + f + (if free then 0 else skip), head := if free then 0 else g.head
                                  tail := (start + f) % size
                                  landing := some { start := start, units := f, msg := m } }
        let r := { r with p := p.setRing m.index g' }
        (if free then r.freed reader skip else r, false)

/-- The header is written: the message lands (R233, R250), in a ring that closed after its first packet too (no rule says otherwise: DESIGN CHOICE, log
entry 97); one that has lost a flit never does (08 R308). -/
def Run.ringLand (r : Run) (k : Nat) : Run :=
  let g := r.p.ring k
  match g.landing with
  | none => r
  | some l =>
    let m := l.msg
    if m.short then r else
    let len := m.data.length
    let src := globalAddr m.srcDev (if m.srcPort then 0 else m.srcX) (if m.srcPort then 0 else m.srcY) 0
    let number := (g.pops + g.msgs) % 2 ^ 32
    let p := r.p.memWrite (g.base + 32 * l.start)
      (ringHeaderBytes len 0 number src (m.srcCh % 16 + (if m.srcPort then 16 else 0)))
    let g' : Ring := { g with msgs := g.msgs + 1, landing := none, left := if g.msgs = 0 then len else g.left }
    let p := ((p.setRing k g').bump cMsgIn 1).applySignal m.signal
    { r with p := { p with watch := { p.watch with moved := true } } }

/-- A grant reaches a channel (R217, R219, R220). -/
def Plot.grantArrive (p : Plot) (ch n : Nat) : Plot :=
  if p.isReset then p else p.setChan ch ((p.chan ch).grant n)

/-- A close notice sets CLOSED (R237). -/
def Plot.closeArrive (p : Plot) (ch : Nat) : Plot :=
  if p.isReset then p else p.setChan ch { p.chan ch with dest := putBits (p.chan ch).dest 62 62 1 }

/-- A drop notice adds one to the drop count (R237, R241). -/
def Plot.dropArrive (p : Plot) (ch : Nat) : Plot :=
  if p.isReset then p else p.setChan ch ((p.chan ch).bump 2 1)

/-- The move that waits for a ticket of a controller. -/
def Plot.ticketWaiter (p : Plot) (c : Nat) : Option Flight := p.seq.ops.find? fun f => f.wait == .ticket c

/-- A ticket reaches the plot (09 R330, R332): the waiting request leaves at once; with none waiting it goes back. -/
def Run.ticketArrive (r : Run) (c : Nat) : Run :=
  let e := r.p.edge
  let e := { e with asks := e.asks.set c false, tickets := e.tickets.modify c (· + 1) }
  let r := { r with p := { r.p with edge := e } }
  match r.p.ticketWaiter c with
  | some f => r.goOn f
  | none =>
    ({ r with p := { r.p with edge := { e with tickets := e.tickets.modify c (· - 1) } } }).send
      ⟨r.here, .emc c, 2, .giveBack r.phys c⟩

/-- A completion reaches the plot (09 R326, R328, R332): read data is written, the ticket kept or not, the tracker freed when its
last request is done, and the signal added then. A move that waits for the controller sends its next request with the ticket, or asks for one (R330). -/
def Run.edgeComplete (r : Run) (c : Nat) (q : EdgeReq) (keep : Bool) : Run × Bool :=
  let p := r.p
  if p.isReset ∨ (p.st = .quiescent ∧ p.watch.partialRec = true) then (r, true)
  else
    let p := if q.write then p else
      ((q.locals.zipIdx).foldl (fun (p : Plot) li => p.memWrite li.1 ((q.data.drop (64 * li.2)).take 64)) p)
    let e := p.edge
    let e := { e with sent := e.sent.modify c (· - 1), tickets := if keep then e.tickets.modify c (· + 1) else e.tickets }
    let p := match e.trackers.find? fun t => t.id == q.tracker with
      | none => { p with edge := e }
      | some t =>
        if t.left ≤ 1 then
          ({ p with edge := { e with trackers := e.trackers.filter fun u => u.id != t.id } }).applySignal t.signal
        else { p with edge := { e with trackers := e.trackers.map fun u => if u.id == t.id then { u with left := u.left - 1 } else u } }
    let r := { r with p := p }
    match r.p.ticketWaiter c with
      | some f => (r.goOn f, false)
      | none =>
        if !keep || p.st == .running || p.st == .draining then (r, false)
        else
          let e := r.p.edge
          (({ r with p := { r.p with edge := { e with tickets := e.tickets.modify c (· - 1) } } }).send
            ⟨r.here, .emc c, 2, .giveBack r.phys c⟩, false)

end Sys2Proof.Machine
end

