-- ==== Sys2Proof/Machine/PlotRegs.lean ====
section
/-! DEFINITION. The control space of a plot (spec/02_plots.md R88-R103 and the chapters it points to): reads and writes of
32-bit words, and the context record (spec/05 R210-R214, R559). -/

namespace Sys2Proof.Machine

def bit (b : Bool) (k : Nat) : Nat := if b then 2 ^ k else 0

def PState.code : PState → Nat
  | .idle => 0
  | .loaded => 1
  | .running => 2
  | .draining => 3
  | .quiescent => 4
  | .faulted => 5
  | .fenced => 6
  | .test => 7

/-- 32-bit halves of a 64-bit value. -/
def half (v : W64) (hi : Bool) : Nat := if hi then v.toNat / 2 ^ 32 else v.toNat % 2 ^ 32

/-- A 32-bit value put into a half of a 64-bit one. -/
def putHalf (v : W64) (hi : Bool) (x : Nat) : W64 :=
  if hi then BitVec.ofNat 64 (v.toNat % 2 ^ 32 + x % 2 ^ 32 * 2 ^ 32)
  else BitVec.ofNat 64 (v.toNat / 2 ^ 32 * 2 ^ 32 + x % 2 ^ 32)

/-- What the control space shows that the plot itself does not hold: PLOT_ID, the physical index, whether the survey record marks
the plot dead, whether a test has finished since reset, whether triangulation is testing the plot (12 R421), and the debug level in force. -/
structure RegView where
  id : W32
  phys : Nat
  dead : Bool
  tested : Bool
  testing : Bool
  observe : Bool
  invasive : Bool
  deriving DecidableEq, Repr

/-- The state a plot shows: while S4 runs, every plot that it tests is in TEST (12 R421, R426). -/
def Plot.shownState (p : Plot) (v : RegView) : PState := if v.testing && p.st == .idle then .test else p.st

/-- PLOT_STATUS (R92). -/
def Plot.statusWord (p : Plot) (v : RegView) : Nat :=
  (p.shownState v).code + p.seq.cur * 8 + bit (!p.seq.firings.isEmpty) 6 + bit p.seq.switching.isSome 7 + bit p.underSurvey 8
    + bit p.seq.halted 9 + bit (sheetHeader p.seq.cache p.seq.cur).counted 10

/-- The target of NEXT and ENDS (R95): the one that waits or is being switched to, else the one R188 would choose (R193). Of a plot that has ended
no rule says it: the end stands, and NEXT reads the current sheet (DESIGN CHOICE, log entry 99). -/
def Plot.nextTarget (p : Plot) : Nat :=
  let h := sheetHeader p.seq.cache p.seq.cur
  match p.seq.switching, p.seq.target with
  | some t, _ => t
  | none, some t => t
  | none, none =>
    if p.seq.ended || (h.counted && !h.foldEn) then 8 else (foldTarget h ((p.seq.visits[p.seq.cur]?).getD 0)).1

/-- SHEET_STATE (R95, R193). -/
def Plot.sheetStateWord (p : Plot) : Nat :=
  let t := p.nextTarget
  p.seq.cur + (List.range 8).foldl (fun n s => n + bit (sheetValid p.seq.cache s) (3 + s)) 0
    + (if t = 8 then p.seq.cur else t) * 2 ^ 11 + bit (t == 8) 14

/-- CG_STATUS (R272). -/
def Group.statusWord (g : Group) : Nat :=
  g.state + bit g.parcel 2 + g.slot * 8 + bit g.voted 7 + g.stores.length * 2 ^ 8 + g.sends.length * 2 ^ 14 + g.last * 2 ^ 18

/-- The slot of an arrive that waits at issue for its leaf (07 R255). -/
def Plot.arriveWaits (p : Plot) : Option Nat :=
  match p.current with
  | none => none
  | some f =>
    let w := sheetOp p.seq.cache f.sheet f.slot
    if p.live && opClass w == 9 && !opIllegal w && p.waitsAtIssue w then some (bitsOf (opParam w) 3 0) else none

/-- SYNC_WAIT (R272). -/
def Plot.syncWait (p : Plot) : Nat :=
  match p.seq.ops.find? fun f => f.wait == .beacon || f.wait == .contour || f.wait == .join with
  | none =>
    match p.arriveWaits with
    | some k => 2 + k * 4
    | none => 0
  | some f =>
    match f.wait with
    | .beacon => 1 + bitsOf (opParam f.word) 4 0 * 4
    | .contour => 2 + bitsOf (opParam f.word) 3 0 * 4
    | _ => 3 + p.group.slot * 4

/-- QIN_STAT (06 R228). -/
def Queue.statWord (q : Queue) : Nat := q.entries.length + bit q.closed 5 + q.owed * 2 ^ 6

/-- A channel's five words (06 R218). -/
def Channel.word (c : Channel) (i : Nat) : Nat :=
  match i with
  | 0 => half c.dest false
  | 1 => half c.dest true
  | 2 => c.rsz + c.latWrap.toNat * 16
  | 3 => c.latMsgs
  | 4 => c.latStalls
  | 5 => c.latDrops
  | _ => 0

/-- A ring descriptor's six words (06 R235). -/
def Ring.word (g : Ring) (i : Nat) : Nat :=
  match i with
  | 0 => g.base + g.rsz * 2 ^ 18 + bit g.enable 22
  | 1 => g.head + g.left * 2 ^ 12
  | 2 => g.tail + g.used * 2 ^ 12
  | 3 => g.msgs + bit g.closed 12
  | 4 => g.pops
  | 5 => g.owed
  | _ => 0

/-- TEST_STATUS (12 R427). -/
def Plot.testWord (p : Plot) (v : RegView) : Nat :=
  bit (p.test.done || v.tested) 0 + bit p.test.selfFail 1 + p.test.nbFail.toNat * 4 + p.test.judged.toNat * 2 ^ 6
    + bit (p.test.dead || v.dead) 10

def tile (p : Plot) (i : Nat) : List W128 := if i = 0 then p.tile0 else p.tile1

/-- ACC_FLAGS (R98, R155, R158), in the mode of the current sheet's FIN_CTRL (R159). -/
def Plot.accFlags (p : Plot) : Nat :=
  let fp32 := (sheetFin p.seq.cache p.seq.cur).accMode == 1
  let a := tileFlags fp32 p.tile0
  let b := tileFlags fp32 p.tile1
  bit a.1 0 + bit a.2 1 + bit b.1 2 + bit b.2 3

/-- A word of control space as it reads, without side effects; MEM_DATA is not here. Reserved offsets read zero (R11). -/
def Plot.ctrlWord (p : Plot) (v : RegView) (off : Nat) : Nat :=
  let k := off / 4
  if off < 0x100 then
    match off with
    | 0x000 => v.id.toNat
    | 0x004 => (plotPhysReg v.phys).toNat
    | 0x008 => p.statusWord v
    | 0x00C => bit p.nanTrap 0 + bit p.haltReq 1 + bit p.fence 3 + bit p.underSurvey 4
    | 0x010 => bit p.writeRefused 0 + bit p.windowPoison 1
    | 0x014 => p.parcel + bit p.gate 8 + bit p.swapStaged 9
    | _ => 0
  else if off < 0x200 then
    match off with
    | 0x100 => p.sheetStateWord
    | 0x104 => p.seq.sel + (p.seq.visits[p.seq.sel]?).getD 0 * 2 ^ 16
    | 0x108 => (p.seq.fires[p.seq.sel]?).getD 0
    | 0x10C => p.seq.inVisit + bit p.seq.ended 16
    | _ => 0
  else if off < 0x300 then
    match off with
    | 0x200 => p.trap.fault.toNat
    | 0x210 => p.trap.info.toNat
    | 0x214 => p.trap.fire.toNat
    | 0x218 => p.trap.opndA.toNat
    | 0x21C => p.trap.opndB.toNat
    | 0x220 => half p.trap.addr false
    | 0x224 => half p.trap.addr true
    | 0x228 => p.trap.plot.toNat
    | 0x22C => p.trap.nan.toNat
    | _ => 0
  else if off < 0x400 then
    if off < 0x31C then (p.cnt.now[(off - 0x300) / 4]?).getD 0
    else if off < 0x320 then p.cnt.wrap
    else if off < 0x340 then 0
    else if off < 0x35C then (p.cnt.lat[(off - 0x340) / 4]?).getD 0
    else if off < 0x360 then p.cnt.latWrap
    else if off < 0x364 then p.cnt.epoch % 2 ^ 32
    else if off < 0x368 then p.cnt.epoch / 2 ^ 32
    else 0
  else if off < 0x480 then
    let q := p.queue ((off - 0x400) / 8)
    if k % 2 = 0 then q.statWord else q.pops
  else if off < 0x500 then
    if off < 0x484 then p.qview
    else if 0x4C0 ≤ off ∧ off < 0x4E0 then
      leNat (((((p.queue p.qview).entries.headD []).map (·.1)).drop (off - 0x4C0)).take 4)
    else 0
  else if off < 0x700 then (p.chan ((off - 0x500) / 32)).word (off % 32 / 4)
  else if off < 0x800 then (p.ring ((off - 0x700) / 32)).word (off % 32 / 4)
  else if off < 0x880 then
    let b := (off - 0x800) / 4
    p.beacon b + bit (p.seq.ops.any fun f => f.wait == .beacon && bitsOf (opParam f.word) 4 0 == b) 16
  else if off < 0x900 then
    match off with
    | 0x880 => p.group.statusWord
    | 0x884 => p.group.flags.toNat
    | 0x888 => p.syncWait
    | _ => 0
  else if off < 0x940 then leNat ((p.legend.drop (off - 0x900)).take 4)
  else if 0xA00 ≤ off ∧ off < 0xC00 then half ((p.loc[(off - 0xA00) / 8]?).getD 0) (k % 2 == 1)
  else if 0xC00 ≤ off ∧ off < 0xD00 then
    if off = 0xC00 then p.accSel
    else if 0xC10 ≤ off ∧ off < 0xC20 then
      (((tile p (p.accSel % 2))[p.accSel / 2]?).getD 0).toNat / 2 ^ (32 * ((off - 0xC10) / 4)) % 2 ^ 32
    else if off = 0xC20 then p.accFlags
    else if off = 0xC40 then p.memAddr
    else 0
  else if 0xD00 ≤ off ∧ off < 0xD80 then
    match off with
    | 0xD00 => p.testWord v
    | 0xD04 => p.test.links.toNat
    | 0xD08 => (if v.tested && !p.test.done then Config.triangSig v.phys else p.test.sig).toNat
    | 0xD0C => (if v.tested && !p.test.done then Config.triangProg else p.test.prog).toNat
    | _ => 0
  else if 0xD80 ≤ off ∧ off < 0xE00 then
    if !v.observe then 0
    else match off with
    | 0xD80 => p.trace.ctl.toNat
    | 0xD84 => p.trace.count.toNat
    | _ => if 0xDC0 ≤ off then half ((p.trace.entries[(off - 0xDC0) / 8]?).getD 0) (k % 2 == 1) else 0
  else 0

/-- Where the line of MEM_ADDR stands for a byte of MEM_DATA. -/
def Plot.windowAddr (p : Plot) (off : Nat) : Nat := off - 0xC80 + p.memAddr

/-- Present local offsets (R43). -/
def localPresent (a : Nat) : Bool := decide (a < 0x34000)

/-- A read of MEM_DATA (R99, R313): n bytes at a window offset, corrections written back, poison flagged. -/
def Plot.windowRead (p : Plot) (off n : Nat) : Plot × List Byte :=
  let a := p.windowAddr off
  if !localPresent a then (p, List.replicate n 0)
  else
    let (p, d) := p.memRead a n
    let p := if d.any (·.2) then { p with windowPoison := true } else p
    (p, d.map (·.1))

/-- A write of MEM_DATA (R99): the sheet store's bytes go to the sheet cache as well. -/
def Plot.windowWrite (p : Plot) (off : Nat) (b : List Byte) : Plot :=
  let a := p.windowAddr off
  if !localPresent a then p
  else
    let p := p.memWrite a (cleanData b)
    if 0x32000 ≤ a then { p with seq := { p.seq with cache := cellsWrite p.seq.cache (a - 0x32000) b } } else p

/-- Offsets that R89 closes while the plot runs or drains, as R88 lays them out: queues, channels, rings and beacons, commit-group state but
for the W1C CG_FLAGS, sheet-local registers, the accumulator window, the memory window, through which alone the sheet store is reached. -/
def refusedWhileRunning (off : Nat) : Bool :=
  decide (0x400 ≤ off ∧ off < 0x4E0) || decide (0x500 ≤ off ∧ off < 0x884) || decide (0x888 ≤ off ∧ off < 0x900)
    || decide (0xA00 ≤ off ∧ off < 0xC30) || decide (0xC40 ≤ off ∧ off < 0xCC0)

/-- Whether a control-space write is refused (R89; not for a plot halted at Invasive, 16 R528). -/
def Plot.refuses (p : Plot) (v : RegView) (off : Nat) : Bool :=
  (p.st == .running || p.st == .draining) && !(p.seq.halted && v.invasive) && refusedWhileRunning off

/-- Write a channel's RW words, a reserved KIND or RSZ leaving the field as it was (R12, R218). -/
def Channel.write (c : Channel) (i x : Nat) : Channel :=
  match i with
  | 0 =>
    let x' := if x % 4 = 3 then x / 4 * 4 + c.kind else x
    { c with dest := putHalf c.dest false x' }
  | 1 => { c with dest := putHalf c.dest true x }
  | 2 => if x % 16 ≤ 10 then { c with rsz := x % 16 } else c
  | _ => c

/-- Write RING_CFG, reserved values leaving their field (R12, R229, R235). -/
def Ring.write (g : Ring) (i x : Nat) : Ring :=
  if i = 0 then
    { g with base := if x % 32 = 0 then x % 2 ^ 18 else g.base
             rsz := if bitsOf x 21 18 ≤ 10 then bitsOf x 21 18 else g.rsz
             enable := x.testBit 22 }
  else g

/-- A 32-bit write of control space that is not refused, for everything but PLOT_CTRL and MEM_DATA (R8, R12). -/
def Plot.ctrlWrite (p : Plot) (v : RegView) (off x : Nat) : Plot :=
  let k := off / 4
  if off < 0x400 then
    match off with
    | 0x010 => { p with writeRefused := p.writeRefused && !x.testBit 0, windowPoison := p.windowPoison && !x.testBit 1 }
    | 0x104 => { p with seq := { p.seq with sel := x % 8 } }
    | 0x200 => { p with trap := { p.trap with fault := p.trap.fault &&& ~~~(BitVec.ofNat 5 x) } }
    | 0x210 => if x.testBit 0 then { p with trap := { p.trap with info := p.trap.info &&& ~~~(1 : W32) } } else p
    | _ => p
  else if off < 0x500 then (if off = 0x480 then { p with qview := x % 16 } else p)
  else if off < 0x700 then p.setChan ((off - 0x500) / 32) ((p.chan ((off - 0x500) / 32)).write (off % 32 / 4) x)
  else if off < 0x800 then p.setRing ((off - 0x700) / 32) ((p.ring ((off - 0x700) / 32)).write (off % 32 / 4) x)
  else if off < 0x880 then p.beaconSet ((off - 0x800) / 4) x
  else if off < 0x900 then
    (if off = 0x884 then { p with group := { p.group with flags := p.group.flags &&& ~~~(BitVec.ofNat 6 x) } } else p)
  else if off < 0x940 then
    { p with legend := p.legend.take (off - 0x900) ++ leBytes 4 x ++ p.legend.drop (off - 0x900 + 4) }
  else if 0xA00 ≤ off ∧ off < 0xC00 then
    { p with loc := p.loc.modify ((off - 0xA00) / 8) fun w => putHalf w (k % 2 == 1) x }
  else if off = 0xC00 then { p with accSel := x % 128 }
  else if 0xC10 ≤ off ∧ off < 0xC20 then
    let lo := 32 * ((off - 0xC10) / 4)
    let set (w : W128) : W128 :=
      BitVec.ofNat 128 (w.toNat - w.toNat / 2 ^ lo % 2 ^ 32 * 2 ^ lo + x % 2 ^ 32 * 2 ^ lo)
    if p.accSel % 2 = 0 then { p with tile0 := p.tile0.modify (p.accSel / 2) set }
    else { p with tile1 := p.tile1.modify (p.accSel / 2) set }
  else if off = 0xC40 then { p with memAddr := x % 2 ^ 18 / 64 * 64 }
  else if off = 0xD80 then (if v.observe then { p with trace := { p.trace with ctl := BitVec.ofNat 5 x } } else p)
  else p

/-- A write of 4 or 8 bytes below PLOT_CTRL's own rules: refused as a whole, or taken word by word. -/
def Plot.regWrite (p : Plot) (v : RegView) (off n : Nat) (x : W64) : Plot :=
  if p.refuses v off || (n == 8 && p.refuses v (off + 4)) then { p with writeRefused := true }
  else if 0xC80 ≤ off ∧ off < 0xCC0 then p.windowWrite off (leBytes n x.toNat)
  else
    let p := p.ctrlWrite v off (half x false)
    if n = 8 then p.ctrlWrite v (off + 4) (half x true) else p

/-- A read of 4 or 8 bytes. -/
def Plot.regRead (p : Plot) (v : RegView) (off n : Nat) : Plot × List Byte :=
  if 0xC80 ≤ off ∧ off < 0xCC0 then p.windowRead off n
  else (p, leBytes 4 (p.ctrlWord v off) ++ if n = 8 then leBytes 4 (p.ctrlWord v (off + 4)) else [])

/-- Bytes [off, off + n) of control space as they stand. -/
def Plot.ctrlBytes (p : Plot) (v : RegView) (off n : Nat) : List Byte :=
  (List.range (n / 4)).flatMap fun i => leBytes 4 (p.ctrlWord v (off + 4 * i))

/-! ## The context record (05 R210-R214, R559) -/

/-- Poison map bytes of 64-bit words: bit i marks word i. -/
def packBits (l : List Bool) : List Byte :=
  match l with
  | a :: b :: c :: d :: e :: f :: g :: h :: r =>
    BitVec.ofNat 8 (bit a 0 + bit b 1 + bit c 2 + bit d 3 + bit e 4 + bit f 5 + bit g 6 + bit h 7) :: packBits r
  | _ => []

def Data.poisonMap : Nat → Data → List Bool
  | 0, _ => []
  | n + 1, d => (d.take 8).any (·.2) :: Data.poisonMap n (d.drop 8)

/-- Queue entries of a record: 16 entries of 32 bytes a queue, zero where unused. -/
def Plot.queueArea (p : Plot) : Data :=
  (List.range 16).flatMap fun n =>
    let es := (p.queue n).entries
    (List.range 16).flatMap fun e => (es[e]?).getD (List.replicate 32 ((0 : Byte), false))

/-- Flags of a record's header (R211). -/
def Plot.recordFlags (p : Plot) (withMemory : Bool) : Nat :=
  bit p.watch.partialRec 0 + bit (p.st == .faulted) 1 + bit withMemory 2 + bit p.seq.ended 3 + p.seq.cur * 16

def zeros (n : Nat) : List Byte := List.replicate n 0

/-- A plot's context record with its CRC (R210, R211, R559); the scan corrects what it reads. -/
def Plot.record (p : Plot) (v : RegView) (digest : List Byte) (withMemory : Bool) : Plot × List Byte :=
  let (p, mem) := if withMemory then p.memRead 0 0x32000 else (p, [])
  let qa := p.queueArea
  let header := leBytes 4 1 ++ leBytes 4 v.id.toNat ++ leBytes 4 (p.recordFlags withMemory)
    ++ leBytes 4 p.seq.inVisit ++ p.seq.fires.flatMap (leBytes 4) ++ p.seq.visits.flatMap (leBytes 2)
    ++ p.ctrlBytes v 0x200 0x30 ++ zeros 16 ++ digest.take 64 ++ zeros 0x3C
  let body := p.slots.flatMap (fun s => leBytes 8 s.w0.toNat ++ leBytes 8 s.w1.toNat)
    ++ p.loc.flatMap (fun w => leBytes 8 w.toNat) ++ tileBytes p.tile0 ++ tileBytes p.tile1
    ++ p.ctrlBytes v 0x500 0x200 ++ p.ctrlBytes v 0x700 0x100 ++ p.ctrlBytes v 0x800 0x80 ++ p.ctrlBytes v 0x880 0x80
    ++ p.legend ++ p.queues.flatMap (fun q => leBytes 4 q.statWord ++ leBytes 4 q.pops) ++ zeros 0x40
    ++ qa.map (·.1) ++ packBits (Data.poisonMap 1024 qa)
    ++ (if withMemory then packBits (Data.poisonMap 0x6400 mem) else zeros 0xC80) ++ zeros 0x200
    ++ mem.map (·.1)
  let crc := crc32c (header ++ zeros 4 ++ body)
  (p, header ++ leBytes 4 crc ++ body)

/-- Bytes of a record: 16 KiB or 216 KiB. -/
def recordSize (withMemory : Bool) : Nat := if withMemory then 0x36000 else 0x4000

/-- Why a plot refuses a record, counted from 1 in the order of R214. -/
def Plot.refusesRecord (p : Plot) (v : RegView) (digest rec : List Byte) : Option Nat :=
  let at' (o n : Nat) : Nat := leNat ((rec.drop o).take n)
  let flags := at' 8 4
  if flags % 4 ≠ 0 then some 1
  else if at' 0 4 ≠ 1 then some 2
  else if at' 4 4 % 2 ^ 21 ≠ v.id.toNat % 2 ^ 21 then some 3
  else if (rec.drop 0x80).take 64 ≠ digest then some 4
  else if at' 0xFC 4 ≠ crc32c (rec.take 0xFC ++ zeros 4 ++ rec.drop 0x100) then some 5
  else if p.forRestore = true ∧ flags.testBit 2 = false then some 6
  else none

/-- Whether bit i of a poison map is set. -/
def mapBit (m : List Byte) (i : Nat) : Bool := ((m[i / 8]?).getD 0).getLsbD (i % 8)

/-- Data of stored bytes under a poison map, whose first word is word w. -/
def withMap (m : List Byte) (w : Nat) (b : List Byte) : Data := (b.zipIdx).map fun bi => (bi.1, mapBit m (w + bi.2 / 8))

def Channel.ofWords (w : Nat → Nat) : Channel :=
  { dest := BitVec.ofNat 64 (w 0 + w 1 * 2 ^ 32), rsz := w 2 % 16, latMsgs := w 3, latStalls := w 4, latDrops := w 5
    latWrap := BitVec.ofNat 3 (w 2 / 16), msgs := 0, stalls := 0, drops := 0, wrap := 0 }

def Ring.ofWords (w : Nat → Nat) : Ring :=
  { base := bitsOf (w 0) 17 0, rsz := bitsOf (w 0) 21 18, enable := (w 0).testBit 22, head := bitsOf (w 1) 11 0
    left := bitsOf (w 1) 24 12, tail := bitsOf (w 2) 11 0, used := bitsOf (w 2) 24 12, msgs := bitsOf (w 3) 11 0
    closed := (w 3).testBit 12, pops := w 4, owed := bitsOf (w 5) 12 0, landing := none }

/-- Write a record into a plot (R213, R242, R261, R559): every item of R210, the hidden counters, slots with ACTIVE clear. -/
def Plot.restore (p : Plot) (rec : List Byte) : Plot :=
  let at' (o n : Nat) : Nat := leNat ((rec.drop o).take n)
  let flags := at' 8 4
  let qmap := (rec.drop 0x3100).take 0x80
  let queue (n : Nat) : Queue :=
    let stat := at' (0x1040 + 8 * n) 4
    { entries := (List.range (stat % 32)).map fun e =>
        withMap qmap (64 * n + 4 * e) ((rec.drop (0x1100 + 0x200 * n + 0x20 * e)).take 32)
      closed := stat.testBit 5, owed := bitsOf stat 10 6, pops := at' (0x1044 + 8 * n) 4 }
  let seq := { p.seq with cur := bitsOf flags 6 4, inVisit := at' 0x0C 2, ended := flags.testBit 3
                          fires := (List.range 8).map fun s => at' (0x10 + 4 * s) 4
                          visits := (List.range 8).map fun s => at' (0x30 + 2 * s) 2 }
  let trap : Trap :=
    { fault := BitVec.ofNat 5 (at' 0x40 4), info := BitVec.ofNat 32 (at' 0x50 4), fire := BitVec.ofNat 32 (at' 0x54 4)
      opndA := BitVec.ofNat 32 (at' 0x58 4), opndB := BitVec.ofNat 32 (at' 0x5C 4), addr := BitVec.ofNat 64 (at' 0x60 8)
      plot := BitVec.ofNat 32 (at' 0x68 4), nan := BitVec.ofNat 32 (at' 0x6C 4) }
  let cg := at' 0xF80 4
  let g0 := Group.reset
  let group := { g0 with state := cg % 4, parcel := cg.testBit 2, slot := bitsOf cg 6 3, voted := cg.testBit 7
                         last := bitsOf cg 20 18, flags := BitVec.ofNat 6 (at' 0xF84 4) }
  let p := { p with
    seq := seq, trap := trap, group := group
    slots := (List.range 16).map fun k =>
      ({ w0 := BitVec.ofNat 64 (at' (0x100 + 16 * k) 8), w1 := BitVec.ofNat 64 (at' (0x108 + 16 * k) 8), lost := 0, gone := []
         held := (p.slot k).held } : Slot).setActive false
    loc := (List.range 64).map fun i => BitVec.ofNat 64 (at' (0x200 + 8 * i) 8)
    tile0 := tileOfBytes 64 ((rec.drop 0x400).take 0x400), tile1 := tileOfBytes 64 ((rec.drop 0x800).take 0x400)
    chans := (List.range 16).map fun c => Channel.ofWords fun i => at' (0xC00 + 32 * c + 4 * i) 4
    rings := (List.range 8).map fun n => Ring.ofWords fun i => at' (0xE00 + 32 * n + 4 * i) 4
    beacons := (List.range 32).map fun n => at' (0xF00 + 4 * n) 2
    legend := (rec.drop 0x1000).take 64, queues := (List.range 16).map queue
    edge := { p.edge with tickets := List.replicate 24 0, sent := List.replicate 24 0, buckets := List.replicate 24 512 }
    restored := true, restoredEnded := flags.testBit 3 }
  if flags.testBit 2 then
    { p with mem := (p.mem.write 0 (withMap ((rec.drop 0x3180).take 0xC80) 0 ((rec.drop 0x4000).take 0x32000))).mem }
  else p

end Sys2Proof.Machine
end

