-- ==== Sys2Proof/Machine/BoardState.lean ====
section
/-! DEFINITION. The state of the module outside its plots, as plain data: fields, edge memory controllers, Wenga ports, parcels,
the host interface, the Chartroom, non-volatile storage, power, clocks, reset, security and debug (spec/08 to spec/17). -/

namespace Sys2Proof.Machine

/-- Counters that wrap with a flag and latch at an epoch boundary (02 R103). -/
structure Bank where
  now : List Nat
  wrap : Nat
  lat : List Nat
  latWrap : Nat
  deriving DecidableEq, Repr

def Bank.reset (n : Nat) : Bank := { now := List.replicate n 0, wrap := 0, lat := List.replicate n 0, latWrap := 0 }

/-- A field: network registers (08 R295), fault registers (13 R458), power registers (14 R486), control wires (12 R410). `floor`
is the reported floor (R469); `heat`, `cap` are the ceilings of R472 and R475; `tooHot` says that 95 °C has been reached and 92 °C not been left behind since; `trimNow` is
the trim in force since a slot boundary (R480); `lockout` and `stretchAt`, the times of the stretches of the last 100 µs, belong to R479;
`fenced` says that the field is fenced, `supply` that a supply fault fenced it. -/
structure Field where
  side : BitVec 4
  auto : Bool
  net : Bank
  route : List (Nat × Bool)
  pending : Bool
  first : W32
  point : Nat
  hint : Nat
  hintValid : Bool
  fixPoint : Nat
  fixed : Bool
  squalled : Bool
  floor : Nat
  heat : Nat
  cap : Nat
  vdd : Nat
  trim : Nat
  trimNow : Nat
  hottest : Nat
  sensor : Nat
  watts : Nat
  pwr : Bank
  lockout : Nat
  stretchAt : List Nat
  tooHot : Bool
  ageLimit : Bool
  pwrEn : Bool
  pwrOk : Bool
  rstN : Bool
  stitch : Bool
  cycles : Nat
  fenced : Bool
  supply : Bool
  deriving DecidableEq, Repr

/-- Places of a round robin by field and, within a field, by plot (08 R291, 09 R331): the last field and the last plots served. -/
structure Robin where
  field : Nat
  last : List (Nat × Nat)
  deriving DecidableEq, Repr

/-- An edge memory controller (09 R329-R340, 13 R454). `holders` lists the physical plots that hold tickets, once a ticket; `pool`
holds the accepted requests in the order of acceptance; `window` counts
the reference cycles that a calibration window stays open, `calibrate` a requested calibration that has not had a window, `tooHot` a stack that has
reached 95 °C and not been below 90 °C since (14 R472). -/
structure Emc where
  trained : Bool
  retired : Bool
  hot : Bool
  crit : Bool
  selfRefresh : Bool
  window : Nat
  temp : Nat
  holders : List Nat
  pool : List EdgeReq
  rim : Nat
  asks : List Nat
  shasks : List Nat
  serveAt : Robin
  askAt : Robin
  shaskAt : Robin
  cnt : Bank
  retire : Bool
  scrubEn : Bool
  halved : Bool
  calibrate : Bool
  second : Bool
  cut : Bool
  tooHot : Bool
  deriving DecidableEq, Repr

/-- States of a port (11 R391), in the order of their codes. -/
inductive LinkState where
  | off | detect | equalise | laneMap | identify | unnamed | conflict | mismatch | active | retrain | down
  deriving DecidableEq, Repr

/-- A packet on a Wenga link (11 R382). `inlet` is no part of it: the port it arrived on, or the number of the attachment it came from,
while it waits at a port of this module (11 R388). -/
structure LinkPkt where
  kind : Nat
  flags : Nat
  stream : Nat
  amount : Nat
  dest : W64
  source : W64
  signal : Nat
  way : Option Nat
  data : Data
  inlet : Nat := 0
  deriving DecidableEq, Repr

/-- A data flit kept for replay (11 R381): its bytes, the `SOURCE` of each packet with a unit in it, and whether the first of these
began in an earlier flit. -/
structure SentFlit where
  bytes : List Byte
  sources : List W64
  cont : Bool
  deriving DecidableEq, Repr

/-- This end's half of IDENTIFY (11 R391, R393): device ID, whether it has been written, `TORUS` and the role. -/
structure Told where
  device : Nat
  written : Bool
  torus : BitVec 13
  role : Nat
  deriving DecidableEq, Repr

/-- A Wenga port (11 R374-R402). `replay` holds the unacknowledged flits, oldest first; `waiting` the packets to send, in order in
each virtual channel; `lost` the consecutive choices lost by the head of each credit group (11 R384); `part` the units of the packet
received in part; `recv` the packets received; `credit` and `owe` the units of each channel and class (VC0, VC1, VC3, tally; class 0
before 1); `streamOwed` the credit owed to inbound streams; `wire` the flits put on the link, `lanes` the PAM4 levels they put on each of the
16 lanes, and `told` this end's halves of IDENTIFY. `fecFlits` counts the flits of a window of 2^20 and `fecLanes` those that needed
correction on each lane; `sentFlits` and `winReplays` are the same for replays. `left` says that it has left DETECT since the reset (12 R417). -/
structure Port where
  st : LinkState
  width : Nat
  group : Nat
  reversed : Bool
  los : Bool
  peerRole : Nat
  peerDevice : Nat
  polarity : W16
  failed : W16
  rtt : Nat
  cnt : Bank
  lostSrc : W64
  disable : Bool
  minWidth : Nat
  sendSeq : Nat
  expect : Nat
  nakSent : Bool
  replays : Nat
  replay : List SentFlit
  waiting : List LinkPkt
  lost : List Nat
  part : List Data
  recv : List LinkPkt
  credit : List Nat
  owe : List Nat
  imageUsed : Nat
  imageHeld : List LinkPkt
  streamOwed : List (Nat × Nat)
  second : Bool
  cut : Bool
  wire : List (List Byte)
  lanes : List (List Nat)
  told : List Told
  fecFlits : Nat
  fecLanes : List Nat
  sentFlits : Nat
  winReplays : Nat
  left : Bool
  deriving DecidableEq, Repr

/-- A rectangle of logical plots (10 R345). -/
structure Rect where
  x0 : Nat
  y0 : Nat
  x1 : Nat
  y1 : Nat
  deriving DecidableEq, Repr

/-- An image segment (10 R357, R358): `got` holds its bytes as they have passed. -/
structure ImageSeg where
  rect : Rect
  off : Nat
  len : Nat
  port : Nat
  stream : Nat
  digest : List Byte
  got : List Byte
  passed : Bool
  deriving DecidableEq, Repr

/-- A range of port streams bound to a parcel (10 R355). -/
structure Binding where
  port : Nat
  out : Bool
  first : Nat
  number : Nat
  deriving DecidableEq, Repr

/-- A port stream and the reader or channel of a plot at its other end (11 R400): readers 0-15 queues, 16-23 rings. -/
structure StreamEnd where
  port : Nat
  stream : Nat
  x : Nat
  y : Nat
  index : Nat
  deriving DecidableEq, Repr

/-- A command taken from the ledger (15 R492, R497). -/
structure Cmd where
  seq : Nat
  vector : Nat
  noIrq : Bool
  user : Nat
  op : Nat
  body : List W64
  deriving DecidableEq, Repr

/-- A drain (05 R202-R209); `room` is how many bytes its records may take from `dest` on (13 R438). -/
structure Drain where
  kind : Nat
  scan : Bool
  withMemory : Bool
  dest : Nat
  room : Nat
  start : Nat
  cmd : Option Cmd
  outcome : Option Nat
  cycles : Nat
  notQuiet : Nat
  firstNot : Option XY
  settling : Bool
  deriving DecidableEq, Repr

/-- A parcel's fault (13 R437-R439): the first cause, what faulted first, its trap record, its cycle count and epoch; `reported` says that a
fault drain has reported it. -/
structure ParcelFault where
  cause : Nat
  first : Nat
  trap : List Byte
  cycle : Nat
  epoch : Nat
  rerun : Bool
  reported : Bool
  deriving DecidableEq, Repr

/-- A staged swap (10 R369). -/
structure Swap where
  atlas : List Byte
  base : Nat
  opens : Bool
  cmd : Cmd
  segs : List ImageSeg
  deriving DecidableEq, Repr

/-- Phases of a parcel: loaded, running, draining, drained. -/
inductive Phase where
  | loaded | running | draining | drained
  deriving DecidableEq, Repr

/-- A loaded parcel (10 R347-R371, 05 R198-R209). `list` is the plot list with entry sheets; `quiet` and `ends` count intervals in
succession; `expired` says that an expiry report has reached the root with work held; `spent` that a drain by timeout or deadlock, or a fault,
has left a parcel that is never reopened (05 R208). -/
structure Parcel where
  num : Nat
  digest : List Byte
  keySlot : Nat
  list : List (Rect × Nat)
  stallLog : Nat
  drainTree : Nat
  windows : List EdgeWin
  swapBase : Nat
  swapLen : Nat
  trees : List Nat
  spans : List Nat
  bindings : List Binding
  inStreams : List StreamEnd
  outStreams : List StreamEnd
  segs : List ImageSeg
  imagesDone : Bool
  loadCmd : Option Cmd
  forRestore : Bool
  phase : Phase
  ran : Bool
  drain : Option Drain
  lastOutcome : Option Nat
  fault : Option ParcelFault
  faultArea : Option (Nat × Nat)
  quiet : Nat
  ends : Nat
  endPosted : Bool
  uncommitted : Bool
  expired : Bool
  spent : Bool
  swap : Option Swap
  deriving DecidableEq, Repr

/-- Trees and a parcel number held by a release with KEEP_TREES (10 R368). -/
structure Held where
  num : Nat
  digest : List Byte
  spans : List Nat
  deriving DecidableEq, Repr

/-- A completion or event not yet posted (15 R499, R503, R504); the words that name a report's slot and length are filled in when it
is posted. -/
structure Entry where
  word0 : W64
  epoch : Nat
  cycle : Nat
  field : Nat
  user : Nat
  words : List Nat
  irq : Option Nat
  report : Option (List Byte)
  deriving DecidableEq, Repr

/-- An entry of the MSI-X table (15 R487, R490; the PCI Express layout, log entry 6). -/
structure Msix where
  addr : W64
  data : W32
  ctl : W32
  deriving DecidableEq, Repr

/-- The host interface (15 R487-R504): `taken` holds the commands taken and not completed, in order; `mem` is host memory as the
module has written it; `config` the bytes of configuration space as the host has written them. -/
structure Hif where
  ledger : List Host.Cell
  next : Nat
  ringSet : Bool
  base : Nat
  log : Nat
  vector : Nat
  poolBase : Nat
  poolSlots : Nat
  entry : Nat
  backlog : List Entry
  lostCount : Nat
  lostSince : Nat
  taken : List Cmd
  busMaster : Bool
  config : List Host.Cell
  msix : List Msix
  msixPending : W64
  mem : List Host.Cell
  badAccess : Bool
  legend : List Byte
  cwin : List (Nat × W32)
  cut : Bool
  deriving DecidableEq, Repr

/-- A Chartroom processor (15 R505-R507, 13 R456, 16 R528). -/
structure Processor where
  up : Bool
  restarting : Bool
  expired : Bool
  halted : Bool
  cut : Bool
  restarts : Nat
  partition : List Host.Cell
  deriving DecidableEq, Repr

/-- A firmware image bundle in a flash slot (13 R459, 16 R518, R519): what S0 and attestation use of it. `good` says that it is stored whole, `ryulal`
that its Ryulal signature verifies with the firmware key, `unowned` that its owner signature is all zero, `owned` that it verifies with the owner
modulus of its key table, `tableSigned` that the table's own signature does. -/
structure Image where
  good : Bool
  svn : Nat
  digest : List Byte
  keyTable : List Byte
  ryulal : Bool
  unowned : Bool
  owned : Bool
  tableSigned : Bool
  deriving DecidableEq, Repr

/-- A copy of the survey record (12 R428); `good` says that its digest checks, `mine` that its identity digest does. Joins that
failed are kept with the repair map. -/
structure Survey where
  seq : Nat
  version : Nat
  proj : List (Nat × Nat)
  dead : List Nat
  under : List Nat
  fenced : List Nat
  retired : List Nat
  conns : List (Nat × Nat)
  stitch : List (Nat × List Nat)
  failedJoins : List Nat
  training : List (Nat × Nat)
  good : Bool
  mine : Bool
  deriving DecidableEq, Repr

/-- A journalled transaction (13 R459-R462): its image, survey record, boot selector and fuse words; `step` counts what has been carried out: steps 1
to 3 of R461, COMMIT in either device's entry, steps 5 and 6; `copyDev` the device that step 1 wrote the survey copy to. -/
structure Txn where
  num : Nat
  image : Option Image
  survey : Option Survey
  select : Bool
  fuses : List (Nat × W32)
  step : Nat
  copyDev : Nat
  cmd : Option Cmd
  last : Bool
  deriving DecidableEq, Repr

/-- A journal entry of one device (13 R460). -/
structure JEntry where
  txn : Nat
  ops : BitVec 4
  select : Nat
  surveySeq : Nat
  surveyDev : Nat
  fuses : List (Nat × W32)
  newDigest : List Byte
  commit : Bool
  done : Bool
  deriving DecidableEq, Repr

/-- Fuses, flash and journal (13 R459-R463, 16 R516). `slots` are the image slots of devices 0 and 1, `select`, which the entry committed last names, the device of image
A; `copies` the survey copies of the two devices, `used` the one S1 selected; `survey` the record in use; `journals` the entries of the two
devices, oldest first; `staged` what FW_STAGE has staged; `work` the transactions that are waiting at a step, in order; `due` what Compass held when it
restarted under a non-volatile block, to be settled when the block ends (14 R482). -/
structure Nv where
  fuses : List (Nat × W32)
  slots : List Image
  select : Nat
  copies : List Survey
  used : Nat
  lost : Bool
  survey : Survey
  journals : List (List JEntry)
  nextTxn : Nat
  staged : List Txn
  work : List Txn
  due : Option (List Txn)
  idModulus : List Byte
  running : Image
  secState : Nat
  deriving DecidableEq, Repr

/-- Theodolite's service state: suspects with their copied record and sheet (13 R443), a rerun in progress with its margin plots and the
signatures of its runs (R444-R446), queued tests with what the tests of each command have given (R449), plots in a test of R448 or R449,
consecutive passing patrol tests of plots under survey (R447). -/
structure Suspect where
  phys : Nat
  record : List Byte
  sheet : List Byte
  margin : Option Nat
  sigs : List W32
  second : Option (Nat × W32)
  deriving DecidableEq, Repr

structure Service where
  suspects : List Suspect
  tests : List (Nat × Cmd)
  testing : List (Nat × Bool)
  counts : List (Cmd × Nat × Nat)
  passes : List (Nat × Nat)
  corrected : List (Nat × Nat)
  deriving DecidableEq, Repr

/-- Power states (14 R483). -/
inductive Power where
  | off | standby | idle | active | squall
  deriving DecidableEq, Repr

/-- Power, thermal and margin (14 R464-R485). `samples` are the cap governor's, newest first; `slotW` the averages of the last
slots, newest first; `energyRun`, `peakRun`, `hotRun`, `squallRun` belong to the running epoch; `causes` are the squall causes
present, `junction` the fields whose junction cause is; `waking` says that Idle has ended and the fields and stacks have not left it yet (R483);
`netFix` is the network clock of a fix (R471); `coolant` says that inlet and flow have been read since the last reset. -/
structure Pwr where
  state : Power
  causes : BitVec 6
  blockMain : Bool
  blockStandby : Bool
  netPoint : Nat
  netFixed : Bool
  netFix : Nat
  events : BitVec 8
  mainMv : Nat
  standbyMv : Nat
  mainW : Nat
  avgW : Nat
  sustain : Nat
  inForce : Nat
  coolant : Bool
  inlet : Nat
  outlet : Nat
  flow : Nat
  energy : Nat
  epochEnergy : Nat
  epochPeakW : Nat
  epochPeakC : Nat
  epochSquall : Nat
  energyRun : Nat
  peakRun : Nat
  hotRun : Nat
  squallRun : Nat
  samples : List Nat
  slotW : List Nat
  dither : Nat
  supplyFault : BitVec 48
  stopped : Bool
  junction : BitVec 48
  waking : Bool
  deriving DecidableEq, Repr

/-- A stage record (12 R417). -/
structure Stage where
  result : Nat
  reason : Nat
  level : Nat
  start : Nat
  stop : Nat
  detail : List Nat
  deriving DecidableEq, Repr

/-- The control wires of a main domain (12 R410): the switch, the supply, the reset. -/
structure Domain where
  pwrEn : Bool
  pwrOk : Bool
  rstN : Bool
  deriving DecidableEq, Repr

/-- Reset and clocks (12 R403-R434). `step` is the release step reached (0 before step 1; 4 to 15 the field groups, 16 the link
domain); `selected` says that S2 has selected a reference with every PLL locked; `count` is the standby reference
count; `aAlert` says that REFCLK_A has failed as the source and has not passed since (15 R513); `clock`, `mem` and `link` are the domains beside the fields; `tested` that triangulation has run since the last Cold reset, `built` that PLOT_ID has been written (R424). -/
structure Clk where
  source : Nat
  aLost : Bool
  aAlert : Bool
  bLost : Bool
  aGood : Bool
  bGood : Bool
  aVsB : Int
  cause : Nat
  level : Nat
  ignored : Bool
  ignoredCount : Nat
  widthMs : Nat
  step : Nat
  selected : Bool
  count : Nat
  netHalf : Nat
  stage : Nat
  ready : Bool
  stages : List Stage
  clock : Domain
  mem : Domain
  link : Domain
  mainValid : Bool
  tested : Bool
  built : Bool
  deriving DecidableEq, Repr

/-- TAP instructions (16 R530); `chartroom` is the private one that reaches the Chartroom debug module. -/
inductive Tap where
  | bypass | idcode | sample | extest | chartroom
  deriving DecidableEq, Repr

/-- Security and debug (16 R522-R531), the sounding port (15 R511-R513) and the sideband pins (17 R534-R538). `nonceAt` is the place
of DBG_NONCE in the supply of free values; `alert` is ALERT_SRC; `cut` says that the sideband controller's branch is cut. -/
structure Dbg where
  level : Nat
  invasiveUsed : Bool
  tokenValid : Bool
  suspended : Bool
  nonceAt : Nat
  tap : Tap
  cells : List Bool
  driven : Option (List Bool)
  alert : BitVec 6
  thermtrip : Bool
  straps : Nat
  sampled : Nat
  cut : Bool
  mailbox : List Host.Cell
  deriving DecidableEq, Repr

/-- Module registers (01 R40, 11 R376, R377, R390, 15 R490, R493, R510). -/
structure Regs where
  device : Nat
  written : Bool
  placeRefused : Bool
  torus : BitVec 13
  torusRefused : Bool
  role : W64
  epoch : Nat
  seen : List Nat
  records : List Host.Cell
  modroute : List (Nat × W32)
  deriving DecidableEq, Repr

/-! ## Values after reset -/

def Field.reset : Field :=
  { side := 0, auto := false, net := Bank.reset 4, route := (List.range 48).map fun f => (f, false), pending := false, first := 0
    point := 4, hint := 0, hintValid := false, fixPoint := 0, fixed := false, squalled := false, floor := 7, heat := 0, cap := 0
    vdd := 0, trim := 0, trimNow := 0, hottest := 0, sensor := 0, watts := 0, pwr := Bank.reset 2, lockout := 0, stretchAt := [], tooHot := false
    ageLimit := false, pwrEn := false, pwrOk := false, rstN := false, stitch := false, cycles := 0, fenced := false
    supply := false }

def Robin.reset : Robin := { field := 47, last := [] }

def Emc.reset : Emc :=
  { trained := false, retired := false, hot := false, crit := false, selfRefresh := false, window := 0, temp := 0
    holders := [], pool := [], rim := 0, asks := [], shasks := [], serveAt := Robin.reset, askAt := Robin.reset
    shaskAt := Robin.reset, cnt := Bank.reset 4, retire := false, scrubEn := true, halved := false, calibrate := false
    second := false, cut := false, tooHot := false }

def Port.reset : Port :=
  { st := .off, width := 0, group := 0, reversed := false, los := false, peerRole := 0, peerDevice := 0, polarity := 0
    failed := 0, rtt := 0, cnt := Bank.reset 5, lostSrc := 0, disable := false, minWidth := 1, sendSeq := 0, expect := 0
    nakSent := false, replays := 0, replay := [], waiting := [], lost := List.replicate 8 0, part := [], recv := []
    credit := List.replicate 8 0, owe := List.replicate 8 0, imageUsed := 0, imageHeld := [], streamOwed := []
    second := false, cut := false, wire := [], lanes := List.replicate 16 [], told := [], fecFlits := 0
    fecLanes := List.replicate 16 0, sentFlits := 0, winReplays := 0, left := false }

def Processor.reset : Processor :=
  { up := false, restarting := false, expired := false, halted := false, cut := false, restarts := 0, partition := [] }

def Stage.reset : Stage := { result := 0, reason := 0, level := 0, start := 0, stop := 0, detail := List.replicate 4 0 }

/-- An image that has not been read (16 R524 until S0 has run), and the factory image of a new module (DESIGN CHOICE, log
entry 5). -/
def Image.none : Image :=
  { good := false, svn := 0, digest := List.replicate 64 0, keyTable := [], ryulal := false, unowned := true, owned := false, tableSigned := false }
def Image.factory : Image := { Image.none with good := true, ryulal := true }

/-- The survey record of a new module: q = 25 in every reach (01 R21); the rest empty (DESIGN CHOICE, log entry 5). -/
def Survey.factory : Survey :=
  { seq := 0, version := 0, proj := [], dead := [], under := [], fenced := [], retired := [], conns := [], stitch := []
    failedJoins := [], training := [], good := true, mine := true }

def Nv.reset : Nv :=
  { fuses := [], slots := [Image.factory, Image.factory], select := 0, copies := [Survey.factory, Survey.factory], used := 0
    lost := false, survey := Survey.factory, journals := [[], []], nextTxn := 1, staged := [], work := [], due := none, idModulus := List.replicate 512 0
    running := Image.none, secState := 0 }

def Service.reset : Service := { suspects := [], tests := [], testing := [], counts := [], passes := [], corrected := [] }

def Hif.reset : Hif :=
  { ledger := [], next := 1, ringSet := false, base := 0, log := 0, vector := 0, poolBase := 0, poolSlots := 0, entry := 0
    backlog := [], lostCount := 0, lostSince := 0, taken := [], busMaster := false, config := []
    msix := List.replicate 64 { addr := 0, data := 0, ctl := 1 }, msixPending := 0, mem := [], badAccess := false
    legend := List.replicate 64 0, cwin := [], cut := false }

def Pwr.reset : Pwr :=
  { state := .standby, causes := 0, blockMain := false, blockStandby := false, netPoint := 7, netFixed := false, netFix := 7, events := 0
    mainMv := 0, standbyMv := 0, mainW := 0, avgW := 0, sustain := 40000, inForce := 40000, coolant := false, inlet := 0, outlet := 0, flow := 0
    energy := 0, epochEnergy := 0, epochPeakW := 0, epochPeakC := 0, epochSquall := 0, energyRun := 0, peakRun := 0, hotRun := 0
    squallRun := 0, samples := [], slotW := [], dither := 0, supplyFault := 0, stopped := false, junction := 0, waking := false }

def Domain.off : Domain := { pwrEn := false, pwrOk := false, rstN := false }

def Clk.reset : Clk :=
  { source := 0, aLost := false, aAlert := false, bLost := false, aGood := false, bGood := false, aVsB := 0, cause := 0, level := 0
    ignored := false, ignoredCount := 0, widthMs := 0, step := 0, selected := false, count := 0, netHalf := 0, stage := 0
    ready := false, stages := List.replicate 9 Stage.reset, clock := Domain.off, mem := Domain.off, link := Domain.off
    mainValid := true, tested := false, built := false }

def Dbg.reset : Dbg :=
  { level := 0, invasiveUsed := false, tokenValid := false, suspended := false, nonceAt := 0, tap := .bypass, cells := []
    driven := none, alert := 0, thermtrip := false, straps := 3, sampled := 3, cut := false, mailbox := [] }

def Regs.reset : Regs :=
  { device := 0, written := false, placeRefused := false, torus := 0x1FFF, torusRefused := false, role := 0x0000223366115544
    epoch := 0, seen := List.replicate 48 0, records := [], modroute := [] }

end Sys2Proof.Machine
end

