-- ==== Sys2Proof/Machine/State.lean ====
section
/-! DEFINITION. The state of the module and its value after reset. Everything is plain data: lists that hold only what differs
from the default stand for the 958,464 plots, edge memory, the ledger and the like. -/

namespace Sys2Proof.Machine

/-- Reasons to stop. The spec names no event that stops the machine without describing the state it leaves: a loss of inputs leaves
the power state Off or Standby (01 R36, 14 R483), a plot fault leaves the plot FAULTED (02 R87). -/
inductive Fault where
  /-- Raised by no command. Safe: the machine never stops. -/
  | notRaised
  deriving DecidableEq, Repr

/-- Refusals. -/
inductive Refusal where
  /-- An arm of `exec` whose meaning is not written. Safe: nothing is claimed of it. -/
  | notModelled (mnemonic : String)
  deriving DecidableEq, Repr

/-- The module. `plots` by physical index 1248·y + u, a plot not listed being as after reset; `edge` is edge memory by edge address
(09 R316); `stratus` and `nimbus` hold what is in flight; `notices` the trees of loss notices that a link has brought, each with the device that
sent it (07 R259); `swHeld` the packets that
the transit switch holds, with the port or attachment each came from (11 R388); `roleHolds` the port roles whose set of ACTIVE ports has changed, with the
ports ACTIVE before (11 R388); `out` what the last read returned and `nack` whether the sounding port NACKed; `freeCtr` the place
in the supply of free values (the model's own field, log entry 1); `pending` the commands that wait. -/
structure State where
  plots : List (Nat × Plot)
  fields : List Field
  emcs : List Emc
  ports : List Port
  edge : Mem
  stratus : List Sent
  nimbus : List TallyPkt
  notices : List (Nat × Nat)
  swHeld : List (LinkPkt × Nat)
  parcels : List Parcel
  held : List Held
  roleHolds : List (Nat × List Nat)
  hif : Hif
  procs : List Processor
  nv : Nv
  svc : Service
  pwr : Pwr
  clk : Clk
  dbg : Dbg
  regs : Regs
  out : List Byte
  nack : Bool
  freeCtr : Nat
  pending : List Instr
  deriving DecidableEq, Repr

/-- The module right after a Cold reset, before step 1 of the release: the values of the After reset columns (R10). What no rule
gives a value is named in log entries 1, 5 and 6. -/
def State.reset : State :=
  { plots := [], fields := List.replicate 48 Field.reset, emcs := List.replicate 24 Emc.reset
    ports := List.replicate 16 Port.reset, edge := Mem.reset, stratus := [], nimbus := [], notices := [], swHeld := [], parcels := [], held := []
    roleHolds := [], hif := Hif.reset, procs := List.replicate 4 Processor.reset, nv := Nv.reset, svc := Service.reset
    pwr := Pwr.reset, clk := Clk.reset, dbg := Dbg.reset, regs := Regs.reset, out := [], nack := false, freeCtr := 0
    pending := [] }

end Sys2Proof.Machine
end

