-- ==== Sys2Proof/Machine/Ops.lean ====
section
/-! DEFINITION. The shared operations over the whole state: plots and fields, packets and fences, parcels and their faults, and the
completions and events that go to the host. -/

namespace Sys2Proof.Machine

/-! ## Lists by index -/

def State.field (s : State) (f : Nat) : Field := (s.fields[f]?).getD Field.reset
def State.setField (s : State) (f : Nat) (v : Field) : State := { s with fields := s.fields.set f v }
def State.emc (s : State) (c : Nat) : Emc := (s.emcs[c]?).getD Emc.reset
def State.setEmc (s : State) (c : Nat) (v : Emc) : State := { s with emcs := s.emcs.set c v }
def State.port (s : State) (p : Nat) : Port := (s.ports[p]?).getD Port.reset
def State.setPort (s : State) (p : Nat) (v : Port) : State := { s with ports := s.ports.set p v }

/-- A plot shows at least the module epoch that the last broadcast of a boundary into its field brought (08 R300, 15 R509, R510). -/
def Plot.atEpoch (p : Plot) (e : Nat) : Plot := if p.cnt.epoch < e then { p with cnt := { p.cnt with epoch := e } } else p

/-- The module epoch that the last broadcast of a boundary brought to a physical plot's field. -/
def State.epochAt (s : State) (phys : Nat) : Nat := (s.regs.seen[fieldOfPhys phys]?).getD 0

def State.plot (s : State) (phys : Nat) : Plot := (cellGet Plot.reset s.plots phys).atEpoch (s.epochAt phys)
def State.setPlot (s : State) (phys : Nat) (p : Plot) : State := { s with plots := cellSet Plot.reset phys p s.plots }

/-- The order of DEV_STATUS.UP (15 R493). -/
def procIndex : Proc → Nat
  | .compass => 0
  | .alidade => 1
  | .theodolite => 2
  | .isobar => 3

def State.proc (s : State) (p : Proc) : Processor := (s.procs[(procIndex p)]?).getD Processor.reset
def State.setProc (s : State) (p : Proc) (v : Processor) : State := { s with procs := s.procs.set (procIndex p) v }

/-- A processor that carries out its work: running, not in restart, not halted by debug, supplied (15 R507, 16 R528). -/
def State.serves (s : State) (p : Proc) : Bool :=
  let q := s.proc p
  q.up && !q.restarting && !q.halted && !q.cut

/-! ## Counters with latches (02 R103) -/

def Bank.bump (b : Bank) (k n : Nat) : Bank :=
  let v := (b.now[k]?).getD 0 + n
  { b with now := b.now.set k (v % 2 ^ 32), wrap := if v < 2 ^ 32 then b.wrap else b.wrap ||| 2 ^ k }

def Bank.latch (b : Bank) : Bank :=
  { now := b.now.map fun _ => 0, wrap := 0, lat := b.now, latWrap := b.wrap }

/-- NET_DISCARD, NET_CORR, NET_POISON, NET_PARITY (08 R295). -/
def State.countNet (s : State) (f k n : Nat) : State :=
  let v := s.field f
  if n = 0 then s else s.setField f { v with net := v.net.bump k n }

def State.discard (s : State) (f : Nat) : State := s.countNet f 0 1

/-- EMC_CORR, EMC_POISON, EMC_READS, EMC_WRITES (09 R340). -/
def State.countEmc (s : State) (c k n : Nat) : State :=
  let v := s.emc c
  if n = 0 then s else s.setEmc c { v with cnt := v.cnt.bump k n }

/-- WG_FEC, WG_REPLAY, WG_RETRAIN, WG_LOST, WG_DISCARD (11 R402). -/
def State.countPort (s : State) (p k n : Nat) : State :=
  let v := s.port p
  if n = 0 then s else s.setPort p { v with cnt := v.cnt.bump k n }

/-! ## Geometry under the survey record -/

def State.phys (s : State) (x y : Nat) : Nat := physOf s.nv.survey.proj x y

/-- PLOT_ID of a physical plot (02 R90), written at the gazetteer build (12 R424). What X, Y and FIELD read at a plot that carries no logical plot
no rule says: X and Y 0, and the physical field's number (DESIGN CHOICE, log entry 78). -/
def State.plotId (s : State) (phys : Nat) : W32 :=
  if !s.clk.built then 0
  else match logicalOf s.nv.survey.proj phys with
    | some q => BitVec.ofNat 32 (q.x + q.y * 2 ^ 11 + fieldOfPhys phys * 2 ^ 21 + 2 ^ 27)
    | none => BitVec.ofNat 32 (fieldOfPhys phys * 2 ^ 21)

def State.isDead (s : State) (phys : Nat) : Bool := s.nv.survey.dead.contains phys

/-- A domain beside the fields whose supply and reset are both up (12 R410, R411). -/
def Domain.up (d : Domain) : Bool := d.pwrEn && d.pwrOk && d.rstN

/-- A field whose supply and reset are both up (12 R410, R411). -/
def State.powered (s : State) (f : Nat) : Bool :=
  let v := s.field f
  v.pwrEn && v.pwrOk && v.rstN

/-- A controller and a port that are supplied and out of reset (01 R36, 12 R410, 13 R456). -/
def State.emcUp (s : State) (c : Nat) : Bool := s.clk.mem.up && !(s.emc c).cut
def State.portUp (s : State) (p : Nat) : Bool := s.clk.link.up && !(s.port p).cut

/-- The host reaches the module: its interface is supplied, the module is not Off (01 R36), and S1 has passed, or has failed for a lost survey
record, which a command of the host then answers (12 R416, R429). -/
def State.hostUp (s : State) : Bool :=
  let g := (s.clk.stages[1]?).getD Stage.reset
  !s.hif.cut && s.pwr.state != .off && (g.result == 2 || g.result == 3 || (g.result == 4 && g.reason == 3))

/-- Idle ends: a run command, a gate opening, a drain or scan, or an access of edge memory from the Cirrus root (14 R483). The fields and stacks follow
(`execIdleExit`). -/
def State.wake (s : State) : State := if s.pwr.state == .idle then { s with pwr := { s.pwr with state := .active, waking := true } } else s

/-- A plot that works and sends and receives: supplied, not dead, not fenced (08 R293). -/
def State.alive (s : State) (phys : Nat) : Bool :=
  s.powered (fieldOfPhys phys) && !s.isDead phys && !(s.plot phys).fence

def onGrid (x y : Nat) : Bool := decide (x < 1200 ∧ y < 768)

/-- Network cycles since step 2 of the release. -/
def State.netCycles (s : State) : Nat := s.clk.netHalf / 2

/-- What triangulation tests (12 R421): supplied plots not already dead, and those of a field lost on an earlier run. -/
def State.testable (s : State) (phys : Nat) : Bool :=
  s.powered (fieldOfPhys phys) && (!s.isDead phys || s.nv.survey.fenced.contains (fieldOfPhys phys))

/-- Triangulation is testing a plot: S4 runs after a Cold reset (12 R421, R426). -/
def State.triangulating (s : State) (phys : Nat) : Bool :=
  s.clk.level == 0 && ((s.clk.stages[4]?).getD Stage.reset).result == 1 && s.testable phys

/-- What a plot's control space shows beyond the plot itself. -/
def State.view (s : State) (phys : Nat) : RegView :=
  { id := s.plotId phys, phys := phys, dead := s.isDead phys && s.clk.built, tested := s.clk.tested && !s.isDead phys
    testing := s.triangulating phys
    observe := decide (1 ≤ s.dbg.level), invasive := decide (s.dbg.level = 2) && !s.dbg.suspended }

/-! ## Completions and events (15 R497-R504) -/

/-- Results and MSI-X of one 64-byte entry (R499). -/
def Entry.bytes (e : Entry) : List Byte :=
  leBytes 8 e.word0.toNat ++ leBytes 8 e.epoch ++ leBytes 8 e.cycle ++ leBytes 1 e.field ++ zeros 3 ++ leBytes 4 e.user
    ++ (List.range 4).flatMap fun i => leBytes 8 ((e.words[i]?).getD 0)

def Hif.word (h : Hif) (a : Nat) : Nat := leNat (cellsRead h.mem a 8)

/-- The lowest free report-pool slot (R503). -/
def Hif.freeSlot (h : Hif) : Option Nat := (List.range h.poolSlots).find? fun k => h.word (h.poolBase + 0x10000 * k) == 0

/-- The vector of an entry's message: that of a completion's command; for an event the event vector of the ring it is posted to (R497, R499). -/
def Hif.irqOf (h : Hif) (e : Entry) : Option Nat := if bitsOf e.word0.toNat 39 32 = 3 then some h.vector else e.irq

/-- Send an MSI-X message, or set its pending bit while its vector is masked. -/
def Hif.interrupt (h : Hif) (v : Nat) : Hif :=
  match h.msix[v]? with
  | none => h
  | some m =>
    if m.ctl.getLsbD 0 then { h with msixPending := h.msixPending ||| (1#64 <<< v) }
    else { h with mem := cellsWrite h.mem m.addr.toNat (leBytes 4 m.data.toNat), msixPending := h.msixPending &&& ~~~(1#64 <<< v) }

/-- Post one entry if it can be posted: its ring entry is free, and a pool slot if it has a body (R498, R499, R503). -/
def Hif.tryPost (h : Hif) (e : Entry) : Option Hif :=
  let a := h.base + 64 * h.entry
  if !h.ringSet || !h.busMaster || h.cut || h.word a != 0 then none
  else
    let put (h : Hif) (e : Entry) : Hif :=
      let h := { h with mem := cellsWrite h.mem a e.bytes, entry := (h.entry + 1) % 2 ^ h.log }
      match h.irqOf e with
      | some v => h.interrupt v
      | none => h
    match e.report with
    | none => some (put h e)
    | some body =>
      match h.freeSlot with
      | none => none
      | some k =>
        let b := h.poolBase + 0x10000 * k
        let h := { h with mem := cellsWrite (cellsWrite h.mem (b + 0x40) body) b (leBytes 8 body.length) }
        some (put h { e with words := k :: body.length :: e.words.drop 2 })

/-- The LOST_EVENTS event that goes before the next entry posted after a loss (R504). -/
def State.lostEntry (s : State) : Entry :=
  { word0 := BitVec.ofNat 64 (3 * 2 ^ 32 + 0x0C * 2 ^ 48), epoch := s.regs.epoch, cycle := s.clk.count, field := 0xFF, user := 0
    words := [s.hif.lostSince, 0, 0, 0], irq := none, report := none }

/-- Whether Alidade posts at present (R507). -/
def State.posts (s : State) : Bool := s.serves .alidade

/-- Post the held entries in order, as far as they go; the fuel is at least their number and one. -/
def State.drainBacklog (s : State) : Nat → State
  | 0 => s
  | n + 1 =>
    if !s.posts then s
    else if s.hif.lostSince ≠ 0 then
      match s.hif.tryPost s.lostEntry with
      | none => s
      | some h => ({ s with hif := { h with lostSince := 0 } }).drainBacklog n
    else match s.hif.backlog with
      | [] => s
      | e :: rest =>
        match s.hif.tryPost e with
        | none => s
        | some h => ({ s with hif := { h with backlog := rest } }).drainBacklog n

/-- Add an entry: it is held, then what can be posted is posted; one that finds 1,024 held is discarded and counted (R504). -/
def State.post (s : State) (e : Entry) : State :=
  if 1024 ≤ s.hif.backlog.length then
    { s with hif := { s.hif with lostCount := min 0xFFFFFFFF (s.hif.lostCount + 1), lostSince := s.hif.lostSince + 1 } }
  else ({ s with hif := { s.hif with backlog := s.hif.backlog ++ [e] } }).drainBacklog (s.hif.backlog.length + 2)

def procOfOp (op : Nat) : Proc :=
  if op = 0x0A ∨ op = 0x0B ∨ (0x0D ≤ op ∧ op ≤ 0x10) ∨ op = 0x15 then .theodolite
  else if op = 0x11 ∨ op = 0x12 then .isobar
  else if op = 0x13 ∨ op = 0x14 ∨ op = 0x16 ∨ op = 0x17 then .compass
  else .alidade

/-- The entry of a completion (kind 1) or second completion (kind 2) of a command (R499, R500; RESTARTED under R507). -/
def State.answer (s : State) (c : Cmd) (kind status : Nat) (words : List Nat) (report : Option (List Byte)) (restarted : Bool) : Entry :=
  { word0 := BitVec.ofNat 64 (c.seq + kind * 2 ^ 32 + status * 2 ^ 40 + c.op * 2 ^ 48 + bit restarted 56)
    epoch := s.regs.epoch, cycle := s.clk.count, field := 0xFF, user := c.user, words := words
    irq := if c.noIrq then none else some c.vector, report := report }

/-- Post a completion. -/
def State.respond (s : State) (c : Cmd) (kind status : Nat) (words : List Nat) (report : Option (List Byte)) (restarted : Bool) : State :=
  s.post (s.answer c kind status words report restarted)

/-- The processor of a command is in restart: a completion that falls due sets RESTARTED (R507). -/
def State.restarted (s : State) (c : Cmd) : Bool := (s.proc (procOfOp c.op)).restarting

def State.complete (s : State) (c : Cmd) (status : Nat) (words : List Nat) : State := s.respond c 1 status words none (s.restarted c)
def State.second (s : State) (c : Cmd) (status : Nat) (words : List Nat) : State := s.respond c 2 status words none (s.restarted c)

/-- Post an event with the cycle count and epoch of its reporter (R499, R502). -/
def State.eventFrom (s : State) (field cycle epoch code : Nat) (words : List Nat) (report : Option (List Byte)) : State :=
  s.post
    { word0 := BitVec.ofNat 64 (3 * 2 ^ 32 + code * 2 ^ 48), epoch := epoch, cycle := cycle, field := field, user := 0
      words := words, irq := none, report := report }

/-- Post an event of a Chartroom processor, with the standby count. Which entries carry a field's count the spec does not list: the fault report does, every
other entry has the standby count (DESIGN CHOICE, log entry 108). -/
def State.event (s : State) (code : Nat) (words : List Nat) (report : Option (List Byte)) : State :=
  s.eventFrom 0xFF s.clk.count s.regs.epoch code words report

/-- Status codes of R500. -/
def stOk : Nat := 0x00
def stDeferred : Nat := 0x01
def stVersion : Nat := 0x02
def stNotReady : Nat := 0x03
def stImagesPending : Nat := 0x04
def stParcelRunning : Nat := 0x05
def stQueueFull : Nat := 0x06
def stRefused : Nat := 0x07
def stBadCommand : Nat := 0x08
def stSequence : Nat := 0x09
def stNoParcel : Nat := 0x0A
def stSwapRefused : Nat := 0x0B
def stSwapFailed : Nat := 0x0C
def stHostRead : Nat := 0x0D
def stNotPermitted : Nat := 0x0E
def stBusy : Nat := 0x0F
def stFailed : Nat := 0x10
/-- No rule gives a completion with this status: R507 has a command in progress at a restart complete FAILED. -/
def stServiceRestart : Nat := 0x11

/-- ALERT_SRC (R512): set a bit. -/
def State.alert (s : State) (k : Nat) : State := { s with dbg := { s.dbg with alert := s.dbg.alert ||| BitVec.ofNat 6 (2 ^ k) } }

/-- PWR_EVENTS: bits newly set are reported (14 R485, 15 R502 POWER_EVENT). -/
def State.powerEvent (s : State) (k : Nat) : State :=
  if s.pwr.events.getLsbD k then s
  else ({ s with pwr := { s.pwr with events := s.pwr.events ||| BitVec.ofNat 8 (2 ^ k) } }).event 0x0D [2 ^ k] none

/-! ## Parcels -/

def Rect.has (r : Rect) (x y : Nat) : Bool := decide (r.x0 ≤ x ∧ x ≤ r.x1 ∧ r.y0 ≤ y ∧ y ≤ r.y1)

/-- The plots of a rectangle in the order of R345. -/
def Rect.plots (r : Rect) : List XY :=
  (List.range (r.y1 + 1 - r.y0)).flatMap fun j => (List.range (r.x1 + 1 - r.x0)).map fun i => ⟨r.x0 + i, r.y0 + j⟩

/-- A plot's index in a rectangle (R345). -/
def Rect.index (r : Rect) (x y : Nat) : Nat := (y - r.y0) * (r.x1 + 1 - r.x0) + (x - r.x0)

/-- The plot list of R212. -/
def Parcel.plots (p : Parcel) : List XY := p.list.flatMap fun re => re.1.plots
def Parcel.has (p : Parcel) (x y : Nat) : Bool := p.list.any fun re => re.1.has x y

/-- Fields a parcel touches. -/
def Parcel.touches (p : Parcel) (f : Nat) : Bool :=
  p.list.any fun re =>
    let fx := f % 8
    let fy := f / 8
    decide (re.1.x0 ≤ 150 * fx + 149 ∧ 150 * fx ≤ re.1.x1 ∧ re.1.y0 ≤ 128 * fy + 127 ∧ 128 * fy ≤ re.1.y1)

def State.parcel (s : State) (n : Nat) : Option Parcel := s.parcels.find? fun p => p.num == n
def State.setParcel (s : State) (p : Parcel) : State :=
  { s with parcels := s.parcels.map fun q => if q.num == p.num then p else q }
def State.parcelAt (s : State) (x y : Nat) : Option Parcel := s.parcels.find? fun p => p.has x y

/-- STALL_LIMIT (05 R200, 10 R347). -/
def Parcel.stallLimit (p : Parcel) : Nat := if p.stallLog = 0 then 2 ^ 24 else 2 ^ p.stallLog

/-- A plot's global address without an offset, as reports hold it (R37). -/
def State.plotAddr (s : State) (x y : Nat) : Nat := globalAddr s.regs.device x y 0

/-- A staged swap ends (10 R371): the plots stop accepting its images. -/
def State.dropSwap (s : State) (p : Parcel) : State :=
  let s := s.setParcel { p with swap := none }
  p.plots.foldl (fun (s : State) q =>
    let ph := s.phys q.x q.y
    s.setPlot ph { s.plot ph with swapStaged := false }) s

/-- A staged swap is refused (10 R371). -/
def State.refuseSwap (s : State) (n : Nat) : State :=
  match s.parcel n with
  | none => s
  | some p =>
    match p.swap with
    | none => s
    | some w => (s.dropSwap p).second w.cmd stSwapRefused []

/-! ## Routes and fences (08 R284, R286, R294) -/

/-- Field crossings of a straight route between two fields: x first, then y; each with the side it leaves by. -/
def fieldWalkY (f g : Nat) : Nat → List (Nat × Nat × Nat)
  | 0 => []
  | n + 1 =>
    if f / 8 < g / 8 then (f, 2, f + 8) :: fieldWalkY (f + 8) g n
    else if g / 8 < f / 8 then (f, 0, f - 8) :: fieldWalkY (f - 8) g n
    else []

def fieldWalk (f g : Nat) : Nat → List (Nat × Nat × Nat)
  | 0 => fieldWalkY f g 6
  | n + 1 =>
    if f % 8 < g % 8 then (f, 1, f + 1) :: fieldWalk (f + 1) g n
    else if g % 8 < f % 8 then (f, 3, f - 1) :: fieldWalk (f - 1) g n
    else fieldWalkY f g 6

/-- The field of an end of a transfer: a controller's or port's attachment set in use (R561, R454). -/
def portField (p : Nat) : Nat :=
  if p < 4 then 2 * p
  else if p < 8 then (p - 3) * 8 + 7
  else if p < 12 then 40 + 2 * (p - 8)
  else (p - 11) * 8

def State.placeField (s : State) : Place → Nat
  | .plot x y => fieldOf x y
  | .emc c => if (s.emc c).second then partnerField (emcSide c) (emcField c) else emcField c
  | .port p => if (s.port p).second then partnerField (portSide p) (portField p) else portField p
  | .away _ => 0

/-- The crossings of a route between two fields under the source field's route table (R286); none when the destination is unreachable. -/
def State.routeOf (s : State) (f g : Nat) : Option (List Hop) :=
  let (w, unreachable) := ((s.field f).route[g]?).getD (g, false)
  if unreachable then none
  else if w = g then some (fieldWalk f g 8)
  else some (fieldWalk f w 8 ++ fieldWalk w g 8)

/-- The side opposite to a side. -/
def oppositeSide (d : Nat) : Nat := (d + 2) % 4

def Side.code : Side → Nat
  | .north => 0
  | .east => 1
  | .south => 2
  | .west => 3

/-- The crossing of a field's outer side between the field and an end on the rim (R294, R561). -/
def State.rimHop (s : State) (e : Place) : List Hop :=
  let f := s.placeField e
  match e with
  | .emc c => [(f, (emcSide c).code, f)]
  | .port p => [(f, (portSide p).code, f)]
  | _ => []

/-- The port whose attachment is nearest to a plot, ties to the lower port (11 R375). -/
def State.nearestPort (s : State) (x y : Nat) : Nat :=
  ((List.range 16).foldl (fun (best : Option (Nat × Nat)) p =>
    let h := hopCount (nearestAttachment (portSide p) (s.placeField (.port p)) ⟨x, y⟩) ⟨x, y⟩
    match best with
    | none => some (p, h)
    | some b => if h < b.2 then some (p, h) else some b) none).elim 0 (·.1)

/-- Where a packet leaves the networks of the module: a port's attachment when it goes to another module (11 R375). -/
def State.exitOf (s : State) (k : Packet) : Place :=
  match k.dst, k.src with
  | .away _, .plot x y => .port (s.nearestPort x y)
  | d, _ => d

/-- The crossings of a packet's route as it leaves its source; none when the destination is unreachable (R286). -/
def State.wayOf (s : State) (k : Packet) : Option (List Hop) :=
  let d := s.exitOf k
  (s.routeOf (s.placeField k.src) (s.placeField d)).map fun w => s.rimHop k.src ++ w ++ s.rimHop d

/-- Where a crossing discards what would pass (R294): a fenced side at either end, or a field without supply. -/
def State.hopStop (s : State) (h : Hop) : Option Nat :=
  let (a, d, b) := h
  if (s.field a).side.getLsbD d then some a
  else if a = b then (if s.powered a then none else some a)
  else if (s.field b).side.getLsbD (oppositeSide d) then some b
  else if !s.powered b then some a
  else none

/-- The field where a route stops; none when it is free. -/
def State.fenceHit (s : State) (way : List Hop) : Option Nat := way.findSome? s.hopStop

/-! ## Packets (06 R217, 08 R281, R282) -/

/-- The writer that a grant, a close notice or a drop notice is for. -/
def PktBody.writer : PktBody → Option Writer
  | .grant w _ | .close w | .drop w => some w
  | _ => none

/-- Whether one packet may not overtake another: VC0 and VC1 of one pair together (R282); on VC3 what one reader sends to one writer (06 R217); VC2
has no order. -/
def Packet.sameFlow (a b : Packet) : Bool :=
  a.src == b.src && a.dst == b.dst
    && ((decide (a.vc ≤ 1) && decide (b.vc ≤ 1)) || (a.vc == 3 && b.vc == 3 && a.body.writer.isSome && a.body.writer == b.body.writer))

/-- Take packet n off Stratus, if nothing earlier of its flow is before it. -/
def State.takePacket (s : State) (n : Nat) : Option (Sent × State) :=
  match s.stratus[n]? with
  | none => none
  | some k =>
    if (s.stratus.take n).any (fun e => k.pkt.sameFlow e.pkt) then none
    else some (k, { s with stratus := s.stratus.eraseIdx n })

/-- Arithmetic clocks of the operating points, in 0.1 GHz (14 R466). -/
def pointFreq (p : Nat) : Nat := ([33, 30, 26, 22, 18, 12, 6, 6][p]?).getD 6

/-- R307: the network clock lies between a quarter and a half of a field's arithmetic clock. -/
def State.ratioOk (s : State) (f : Nat) : Bool :=
  let a := pointFreq (s.field f).point
  let n := pointFreq s.pwr.netPoint
  decide (n ≤ a ∧ a ≤ 2 * n)

/-- The network clock is below a quarter of a field's arithmetic clock: buffer entries are overwritten too (R308). -/
def State.netSlow (s : State) (f : Nat) : Bool := decide (2 * pointFreq s.pwr.netPoint < pointFreq (s.field f).point)

/-- Whether an end's ratioed crossing works, and whether it overwrites; the rim has none (R28, R308). -/
def State.crossing (s : State) : Place → Bool × Bool
  | .plot x y => (s.ratioOk (fieldOf x y), s.netSlow (fieldOf x y))
  | _ => (true, false)

/-- What a failing crossing makes of one flit (R308). -/
inductive Fate where
  | whole | lost | twice | overwritten
  deriving DecidableEq, Repr

/-- The fate of the flit at a place in the supply of free values (log entry 1). -/
def fateOf (slow : Bool) (i : Nat) : Fate :=
  match (Config.word i).toNat % 4 with
  | 0 => .whole
  | 1 => .lost
  | 2 => .twice
  | _ => if slow then .overwritten else .whole

/-- Bytes that an overwritten flit brings: free. -/
def freeFlit (i n : Nat) : Data :=
  ((List.range 4).flatMap fun k => leBytes 8 (Config.word (i + k)).toNat).take n |>.map fun b => (b, false)

/-- Data through a failing crossing, flit by flit from a place in the supply: what comes out, and whether a flit was lost. -/
def carryFlits (slow : Bool) (i : Nat) (d : Data) : Nat → Data × Bool
  | 0 => ([], false)
  | n + 1 =>
    let here := d.take 32
    let (rest, lost) := carryFlits slow (i + 5) (d.drop 32) n
    match fateOf slow i with
    | .whole => (here ++ rest, lost)
    | .lost => (rest, true)
    | .twice => (here ++ here ++ rest, lost)
    | .overwritten => (freeFlit (i + 1) here.length ++ rest, lost)

/-- The packets that come out of a failing crossing for one that goes in (R308). One flit is lost, doubled or overwritten whole, which
leaves nothing to route where it carries no data; a longer message keeps what is left of its data, and one short of a flit never ends. -/
def Packet.through (k : Packet) (slow : Bool) (i : Nat) : List Packet :=
  let single : List Packet := match fateOf slow i with
    | .whole => [k]
    | .twice => [k, k]
    | _ => []
  let carry (d : Data) (mk : Data → Packet) : List Packet :=
    let (e, lost) := carryFlits slow i d ((d.length + 31) / 32)
    if lost then [] else [mk e]
  match k.body with
  | .msg m =>
    if m.data.length ≤ 32 then
      (match fateOf slow i with
       | .overwritten => [{ k with body := .msg { m with data := freeFlit (i + 1) m.data.length } }]
       | _ => single)
    else
      let (e, lost) := carryFlits slow i m.data ((m.data.length + 31) / 32)
      if e.isEmpty then [] else [{ k with body := .msg { m with data := e, short := lost } }]
  | .image p x y o d => carry d fun e => { k with body := .image p x y o e }
  | .request c q => if q.data.isEmpty then single else carry q.data fun e => { k with body := .request c { q with data := e } }
  | .completion c q keep => if q.data.isEmpty then single else carry q.data fun e => { k with body := .completion c { q with data := e } keep }
  | _ => single

/-- Places in the supply of free values that a failing crossing uses for a packet. -/
def Packet.freeUse (k : Packet) : Nat :=
  5 * (1 + (match k.body with
    | .msg m => m.data.length
    | .image _ _ _ _ d => d.length
    | .request _ q => q.data.length
    | .completion _ q _ => q.data.length
    | _ => 0) / 32)

/-- What leaves and reaches the plots' crossings of a packet: itself, inside the limit of R307. -/
def State.crossPacket (s : State) (k : Packet) : State × List Packet :=
  let (okA, slowA) := s.crossing k.src
  let (okB, slowB) := s.crossing k.dst
  if okA && okB then (s, [k])
  else ({ s with freeCtr := s.freeCtr + k.freeUse }, k.through (slowA || slowB) s.freeCtr)

/-- The data of a write on VC0 through its plot's crossing (R308): none where a flit of it is lost, which leaves the write short. -/
def State.crossWrite (s : State) (p : XY) (d : Data) : State × Option Data :=
  let (ok, slow) := s.crossing (.plot p.x p.y)
  if ok then (s, some d)
  else
    let (e, lost) := carryFlits slow s.freeCtr d ((d.length + 31) / 32)
    ({ s with freeCtr := s.freeCtr + 5 * (1 + d.length / 32) }, if lost then none else some e)

/-- Put a packet on Stratus; one for an unreachable field is discarded at its source and counted (R286). -/
def State.putPacket (s : State) (k : Packet) : State :=
  match s.wayOf k with
  | none => s.discard (s.placeField k.src)
  | some w =>
    let (s, l) := s.crossPacket k
    { s with stratus := s.stratus ++ l.map fun e => { pkt := e, way := w } }

/-- What comes of a Nimbus packet, one flit, at the ratioed crossings of plots of these fields: how many (R308). -/
def State.tallyCopies (s : State) (fields : List Nat) : State × Nat :=
  if fields.all s.ratioOk then (s, 1)
  else
    let n := match fateOf (fields.any s.netSlow) s.freeCtr with
      | .whole => 1
      | .twice => 2
      | _ => 0
    ({ s with freeCtr := s.freeCtr + 1 }, n)

/-- Put a packet on Nimbus that meets the crossings of these fields. -/
def State.putTallyVia (s : State) (fields : List Nat) (t : TallyPkt) : State :=
  let (s, n) := s.tallyCopies fields
  { s with nimbus := s.nimbus ++ List.replicate n t }

/-- Put a packet on Nimbus from a plot to a plot, under the same crossings (R308). -/
def State.putTally (s : State) (t : TallyPkt) : State :=
  s.putTallyVia (fieldOf t.srcX t.srcY :: if t.x < 1200 then [fieldOf t.x t.y] else []) t

def State.putTallies (s : State) (l : List TallyPkt) : State := l.foldl State.putTally s

/-- Words that a link error has poisoned (08 R296). -/
def Data.mar (d : Data) (words : List Nat) : Data := (d.zipIdx).map fun bi => (bi.1.1, bi.1.2 || words.contains (bi.2 / 8))

/-- The body of a packet with the poison of its links: its data carries it, what has no data has none to carry. -/
def PktBody.mar (b : PktBody) (words : List Nat) : PktBody :=
  match b with
  | .msg m => .msg { m with data := Data.mar m.data words }
  | .image p x y o d => .image p x y o (Data.mar d words)
  | .request c q => .request c { q with data := Data.mar q.data words }
  | .completion c q keep => .completion c { q with data := Data.mar q.data words } keep
  | b => b

/-- What links did to a packet, counted at its destination's field (R295, R296; log entry 9). -/
def State.linkErrors (s : State) (f : Nat) (err : NetErr) : State :=
  (s.countNet f 1 err.corrected).countNet f 2 err.poison.length

/-! ## Cirrus broadcasts (08 R300) -/

/-- A broadcast's selector. -/
inductive Selector where
  | all
  | rectangle (r : Rect)
  | margin
  | test
  deriving DecidableEq, Repr

/-- Whether a selector matches a plot that the flood reaches: one of a supplied field that is not fenced. -/
def State.selects (s : State) (sel : Selector) (phys : Nat) : Bool :=
  let f := fieldOfPhys phys
  s.powered f && !(s.field f).fenced && (match sel with
    | .all => true
    | .rectangle r => (match logicalOf s.nv.survey.proj phys with | some q => r.has q.x q.y | none => false)
    | .margin => (logicalOf s.nv.survey.proj phys).isNone && !s.isDead phys && (s.plot phys).st == .idle
    | .test => (s.plot phys).shownState (s.view phys) == .test)

/-- A broadcast that leaves a plot as after reset as it is: the plots that differ from one apply it. -/
def State.broadcast (s : State) (sel : Selector) (f : Nat → Plot → Plot) : State :=
  ((s.plots.map (·.1)).filter (s.selects sel)).foldl (fun (s : State) ph => s.setPlot ph (f ph (s.plot ph))) s

/-- A broadcast write of 4 or 8 bytes: a plot that refuses it under 02 R89 sets its own WRITE_REFUSED. -/
def State.broadcastWrite (s : State) (sel : Selector) (phys : List Nat) (off n : Nat) (x : W64) : State :=
  (phys.filter (s.selects sel)).foldl (fun (s : State) ph => s.setPlot ph ((s.plot ph).regWrite (s.view ph) off n x)) s

/-! ## Trees (07 R252-R261) -/

/-- A node of a tree: its plot and slot. -/
structure Node where
  x : Nat
  y : Nat
  phys : Nat
  k : Nat
  slot : Slot
  deriving DecidableEq, Repr

/-- All nodes of a tree on the module. -/
def State.nodes (s : State) (tree : Nat) : List Node :=
  s.plots.flatMap fun (ph, p) =>
    match logicalOf s.nv.survey.proj ph with
    | none => []
    | some q => ((p.slots.zipIdx).filter fun sk => sk.1.role != 0 && sk.1.tree == tree).map fun sk => ⟨q.x, q.y, ph, sk.2, sk.1⟩

/-- Whether the region of a node of a role at (x, y) covers a plot. -/
def covers (role x y px py : Nat) : Bool :=
  match role with
  | 1 => x == px && y == py
  | 2 => y == py && x / 30 == px / 30
  | 3 => fieldOf x y == fieldOf px py
  | _ => true

/-- The parent of a node: the lowest higher level that covers it (R252, R258). -/
def parentOf (nodes : List Node) (n : Node) : Option Node :=
  (nodes.filter fun m => decide (n.slot.role < m.slot.role) && covers m.slot.role m.x m.y n.x n.y).foldl
    (fun (best : Option Node) m =>
      match best with
      | none => some m
      | some b => if m.slot.role < b.slot.role then some m else some b) none

def childrenOf (nodes : List Node) (n : Node) : List Node :=
  nodes.filter fun m =>
    match parentOf nodes m with
    | some q => q.phys == n.phys && q.k == n.k
    | none => false

end Sys2Proof.Machine
end

