-- ==== Sys2Proof/Machine/LinkOps.lean ====
section
/-! DEFINITION. The mechanics of the Wenga links (spec/11_wenga_links.md R376-R396): packets and flits, sending, receiving, the choice
of a port, the states of a port. -/

namespace Sys2Proof.Machine

/-! ## Packets (R382, R383) -/

def LinkPkt.unitCount (k : LinkPkt) : Nat := 1 + (k.data.length + 31) / 32

/-- The link VC of a kind, numbered by credit group: VC0, VC1, VC3, tally (R383). Kind 9 and reserved kinds travel without one; they are
put with VC1. -/
def kindVc (kind : Nat) : Nat :=
  match kind with
  | 1 => 0
  | 2 | 3 | 4 | 7 => 2
  | 5 | 10 => 3
  | _ => 1

def LinkPkt.cls (k : LinkPkt) : Nat := k.flags / 2 % 2
def LinkPkt.group (k : LinkPkt) : Nat := 2 * kindVc k.kind + k.cls

/-- The header unit (R382). -/
def LinkPkt.header (k : LinkPkt) : List Byte :=
  leBytes 1 k.kind ++ leBytes 1 k.flags ++ leBytes 2 k.data.length ++ leBytes 2 k.stream ++ leBytes 2 k.amount
    ++ leBytes 8 k.dest.toNat ++ leBytes 8 k.source.toNat ++ leBytes 4 k.signal
    ++ leBytes 2 (match k.way with | some w => w % 1024 + 2 ^ 15 | none => 0) ++ zeros 2

/-- The units of a packet, 32 bytes each, the last filled with zeros. -/
def LinkPkt.units (k : LinkPkt) : List Data :=
  cleanData k.header ::
    (List.range ((k.data.length + 31) / 32)).map fun i =>
      let d := (k.data.drop (32 * i)).take 32
      d ++ List.replicate (32 - d.length) ((0 : Byte), false)

/-- A packet from its units. -/
def LinkPkt.ofUnits (us : List Data) : LinkPkt :=
  let h := (us.headD []).map (·.1)
  let at' (o n : Nat) : Nat := leNat ((h.drop o).take n)
  let way := at' 0x1C 2
  { kind := at' 0 1, flags := at' 1 1, stream := at' 4 2, amount := at' 6 2, dest := BitVec.ofNat 64 (at' 8 8)
    source := BitVec.ofNat 64 (at' 0x10 8), signal := at' 0x18 3
    way := if way.testBit 15 then some (way % 1024) else none, data := (us.drop 1).flatten.take (at' 2 2) }

/-- Units of the packet whose header unit is first. -/
def unitsDue (us : List Data) : Nat :=
  let n := leNat ((((us.headD []).map (·.1)).drop 2).take 2)
  1 + (n + 31) / 32

def LinkPkt.destDev (k : LinkPkt) : Nat := bitsOf k.dest.toNat 48 39
def LinkPkt.srcX (k : LinkPkt) : Nat := bitsOf k.source.toNat 38 28
def LinkPkt.srcY (k : LinkPkt) : Nat := bitsOf k.source.toNat 27 18

/-! ## Flits (R378, R379, R381) -/

/-- Poison bits of a unit: bit k marks its 64-bit word k. -/
def unitPoison (u : Data) : Nat :=
  (List.range 4).foldl (fun n k => n + bit (((u.drop (8 * k)).take 8).any (·.2)) k) 0

/-- Bytes of a flit: header, units, CRC-64, FEC parity. -/
def flitBytes (ftype seq : Nat) (ack : Option Nat) (nak : Bool) (us : List Data) : List Byte :=
  let poison := (us.zipIdx).foldl (fun n ui => n + unitPoison ui.1 * 2 ^ (28 + 4 * ui.2)) 0
  let hd := ftype + seq % 4096 * 4 + (match ack with | some a => a % 4096 * 2 ^ 14 + 2 ^ 26 | none => 0) + bit nak 27 + poison
    + us.length * 2 ^ 56
  let body := leBytes 8 hd ++ (us.flatMap fun u => u.map (·.1)) ++ zeros (32 * (7 - us.length))
  let body := body ++ leBytes 8 (crc64 body)
  body ++ fecParity body

/-- What the latest ACK says: the last data flit received in order, if any. -/
def Port.ackNow (p : Port) : Option Nat := if p.expect = 0 then none else some ((p.expect - 1) % 4096)

/-- A flit kept for replay, with the latest ACK put in. -/
def Port.refresh (p : Port) (b : List Byte) : List Byte :=
  let hd := leNat (b.take 8)
  let hd := bitsOf hd 13 0 + (match p.ackNow with | some a => a * 2 ^ 14 + 2 ^ 26 | none => 0) + hd / 2 ^ 28 * 2 ^ 28
  let body := leBytes 8 hd ++ (b.drop 8).take 224
  let body := body ++ leBytes 8 (crc64 body)
  body ++ fecParity body

/-! ## Lanes (R374, R380, R394) -/

/-- Lanes of a width code. -/
def laneCount (width : Nat) : Nat :=
  match width with
  | 1 => 4
  | 2 => 8
  | 3 => 16
  | _ => 0

/-- A flit's time at a width, in hundredths of a nanosecond (R374). -/
def flitTime (width : Nat) : Nat := if width = 0 then 0 else 512 / laneCount width

/-- Times of a packet of u units over h links, in hundredths of a nanosecond (R397): unloaded, and the bound. -/
def linkUnloaded (h u flight flit : Nat) : Nat := h * (3000 + flight) + (h - 1) * 1500 + ((u + 6) / 7 - 1) * flit
def linkBound (h u flight flit : Nat) : Nat := h * (3000 + flight + ((u + 6) / 7 + 1 + 96) * flit) + (h - 1) * 1500

/-- The lane of the trained group that byte b of a flit travels on (R380). -/
def laneOf (width b : Nat) : Nat := b / 2 % laneCount width

/-- A byte as four PAM4 levels, bits [1:0] first, Gray-coded (R380). -/
def pam4 (b : Byte) : List Nat :=
  let level (v : Nat) : Nat := match v with
    | 0 => 0
    | 1 => 1
    | 3 => 2
    | _ => 3
  (List.range 4).map fun i => level (b.toNat / 4 ^ i % 4)

/-- The levels of a flit on lane l of the group. -/
def laneLevels (width : Nat) (flit : List Byte) (l : Nat) : List Nat :=
  ((flit.zipIdx).filter fun bi => laneOf width bi.2 == l).flatMap fun bi => pam4 bi.1

/-- Put a flit on the link: its bytes, and their levels on the lanes of the trained group; a window of 2^20 flits ends with its count of
replays (R394; log entry 79). -/
def Port.putFlit (p : Port) (b : List Byte) : Port :=
  let n := laneCount p.width
  let full := p.sentFlits + 1 == 2 ^ 20
  { p with
    wire := p.wire ++ [b]
    lanes := (p.lanes.zipIdx).map fun li =>
      if n * p.group ≤ li.2 ∧ li.2 < n * p.group + n then li.1 ++ laneLevels p.width b (li.2 - n * p.group) else li.1
    sentFlits := if full then 0 else p.sentFlits + 1
    winReplays := if full then 0 else p.winReplays }

/-- Count a received flit and the lanes whose bytes needed correction, in windows of 2^20 flits (R394; log entry 79). -/
def Port.noteFec (p : Port) (got fixed : List Byte) : Port :=
  let bad := ((got.zip fixed).zipIdx).filterMap fun gi => if gi.1.1 = gi.1.2 then none else some (laneOf p.width gi.2)
  let lanes := if p.fecFlits = 0 then List.replicate 16 0 else p.fecLanes
  { p with fecFlits := (p.fecFlits + 1) % 2 ^ 20
           fecLanes := (lanes.zipIdx).map fun li => if bad.contains li.2 then li.1 + 1 else li.1 }

/-! ## Sending (R381, R384, R385) -/

/-- Order of choice of R384 over the credit groups' VCs: tally, VC0, VC3, VC1. -/
def chooseOrder : List Nat := [3, 0, 2, 1]

/-- The packet at the head of a link VC's buffer of one class (R389). -/
def headOf (w : List LinkPkt) (v c : Nat) : Option LinkPkt := w.find? fun k => k.kind != 9 && kindVc k.kind == v && k.cls == c

/-- The packets that may go, in the order of choice: the heads of each link VC's two classes that have credit, the one that came first before
the other. -/
def readyPkts (w : List LinkPkt) (credit : List Nat) : List LinkPkt :=
  chooseOrder.flatMap fun v =>
    let heads := (headOf w v 0).toList ++ (headOf w v 1).toList
    let ready := heads.filter fun k => decide (k.unitCount ≤ (credit[k.group]?).getD 0)
    match w.find? ready.contains with
    | some k => k :: ready.erase k
    | none => []

/-- The packet to go next: one that has lost 4 consecutive choices, else the first in order. -/
def Port.choose (p : Port) : Option LinkPkt :=
  match p.waiting.find? fun k => k.kind == 9 with
  | some k => some k
  | none =>
    let r := readyPkts p.waiting p.credit
    match r.find? fun k => decide (4 ≤ (p.lost[k.group]?).getD 0) with
    | some k => some k
    | none => r.head?

/-- Counts of lost choices after the choice of k: every other head that might have gone has lost one. -/
def Port.countLost (p : Port) (k : LinkPkt) : Port :=
  let r := (readyPkts p.waiting p.credit).map (·.group)
  { p with lost := (p.lost.zipIdx).map fun li => if li.2 = k.group then 0 else if r.contains li.2 then li.1 + 1 else li.1 }

/-- Choose packets until none may go or no room is left for n more units: the port after, units with the source of their packet
and whether the unit begins it. -/
def Port.gather (p : Port) : Nat → Nat → Port × List (Data × W64 × Bool)
  | 0, _ => (p, [])
  | fuel + 1, room =>
    match p.choose with
    | none => (p, [])
    | some k =>
      if room < k.unitCount then (p, [])
      else
        let p := if k.kind = 9 then p else p.countLost k
        let p := { p with waiting := p.waiting.erase k
                          credit := if k.kind = 9 then p.credit else p.credit.modify k.group (· - k.unitCount) }
        let us := (k.units.zipIdx).map fun ui => (ui.1, k.source, ui.2 == 0)
        let (p, rest) := p.gather fuel (room - k.unitCount)
        (p, us ++ rest)

/-- Send units as data flits of seven. -/
def Port.sendUnits (p : Port) : Nat → List (Data × W64 × Bool) → Port
  | 0, _ => p
  | fuel + 1, us =>
    match us with
    | [] => p
    | first :: _ =>
      let here := us.take 7
      let b := flitBytes 1 p.sendSeq p.ackNow false (here.map (·.1))
      let starts := here.filter fun u => u.2.2
      let src := (if first.2.2 then [] else [first.2.1]) ++ starts.map (·.2.1)
      let p := { p with sendSeq := p.sendSeq + 1, replay := p.replay ++ [({ bytes := b, sources := src, cont := !first.2.2 } : SentFlit)] }
      (p.putFlit b).sendUnits fuel (us.drop 7)

/-- `SOURCE` of a packet of a port stream: the module, the port number and bit 4 (R382). -/
def portSource (dev port : Nat) : W64 := BitVec.ofNat 64 (globalAddr dev 0 0 0 + port % 16 + 16)

/-- Add to the credit owed to an inbound stream (R399). -/
def oweAdd (l : List (Nat × Nat)) (stream n : Nat) : List (Nat × Nat) :=
  let had := ((l.find? fun a => a.1 == stream).map (·.2)).getD 0
  (l.filter fun a => a.1 != stream) ++ [(stream, had + n)]

/-- A kind 9 packet returns what the receiver owes (R385; the order of the amounts is log entry 23), and kind 7 packets what streams
are owed (R398, R399). -/
def Port.owing (p : Port) (dev port : Nat) : List LinkPkt :=
  let base : LinkPkt := { kind := 9, flags := 0, stream := 0, amount := 0, dest := 0, source := 0, signal := 0, way := none, data := [] }
  let k9 := if p.owe.any (· != 0) then [{ base with data := cleanData (p.owe.flatMap (leBytes 2)) }] else []
  k9 ++ p.streamOwed.map fun sa =>
    { base with kind := 7, stream := sa.1, amount := sa.2, dest := BitVec.ofNat 64 (globalAddr dev 0 0 0), source := portSource dev port }

/-- Send what may be sent: an ACTIVE port with room in its replay buffer. -/
def Port.pump (p : Port) (dev port : Nat) : Port :=
  if p.st != .active then p
  else
    let p := { p with waiting := p.waiting ++ p.owing dev port, owe := p.owe.map fun _ => 0, streamOwed := [] }
    let (p, us) := p.gather (p.waiting.length + 1) (7 * (512 - p.replay.length))
    p.sendUnits us.length us

def State.pump (s : State) (p : Nat) : State := s.setPort p ((s.port p).pump s.regs.device p)

/-- Send one idle flit, with or without a NAK. -/
def Port.idle (p : Port) (nak : Bool) : Port := p.putFlit (flitBytes 0 0 p.ackNow nak [])

/-- Put a packet on a port. -/
def State.enqueue (s : State) (p : Nat) (k : LinkPkt) : State :=
  let v := s.port p
  (s.setPort p { v with waiting := v.waiting ++ [k] }).pump p

/-! ## Roles and the choice of a port (R376, R387-R390) -/

def State.roleOf (s : State) (p : Nat) : Nat := bitsOf s.regs.role.toNat (4 * p + 3) (4 * p)

/-- The ACTIVE ports of a role. -/
def State.activePorts (s : State) (role : Nat) : List Nat :=
  (List.range 16).filter fun p => s.roleOf p == role && (s.port p).st == .active

/-- R388 over a set of ACTIVE ports. -/
def portChoice (ports : List Nat) (even : Bool) : Option Nat :=
  match ports with
  | [] => none
  | [a] => some a
  | a :: b :: _ => some (if even then a else b)

/-- Sizes, wraps and coordinates of the torus (R377, R38). -/
def Regs.size (r : Regs) (dim : Nat) : Nat :=
  1 + (match dim with | 0 => bitsOf r.torus.toNat 2 0 | 1 => bitsOf r.torus.toNat 5 3 | _ => bitsOf r.torus.toNat 9 6)
def Regs.wraps (r : Regs) (dim : Nat) : Bool := r.torus.toNat.testBit (10 + dim)
def coordOf (dev dim : Nat) : Nat := match dim with | 0 => dev % 8 | 1 => dev / 8 % 8 | _ => dev / 64

/-- The role a packet leaves by towards a device: +x 1, −x 2, +y 3, −y 4, +z 5, −z 6 (R376, R387). -/
def Regs.towards (r : Regs) (t : Nat) : Option Nat :=
  (List.range 3).findSome? fun dim =>
    let a := coordOf t dim
    let b := coordOf r.device dim
    if a = b then none
    else
      let plus := if r.wraps dim then decide ((a + r.size dim * 8 - b) % r.size dim ≤ r.size dim / 2) else decide (b < a)
      some (2 * dim + (if plus then 1 else 2))

/-- Where the transit switch takes a packet (R387). -/
inductive Egress where
  | here (k : LinkPkt)
  | discard
  | out (role t : Nat) (k : LinkPkt)
  deriving DecidableEq, Repr

def State.egress (s : State) (k : LinkPkt) : Egress :=
  let own := s.regs.device
  let k := if k.way = some own then { k with way := none, flags := k.flags % 2 } else k
  let t := k.way.getD k.destDev
  if t = own then .here k
  else
    let m := cellGet 0 s.regs.modroute t
    if m.getLsbD 11 then .discard
    else
      let k := if m.getLsbD 10 ∧ k.way = none then { k with way := some (m.toNat % 1024) } else k
      let t := k.way.getD k.destDev
      if t = own then .here { k with way := none }
      else match s.regs.towards t with
        | none => .discard
        | some role => .out role t k

/-- Whether a packet chooses the lower-numbered port (R388). -/
def evenChoice (k : LinkPkt) (t : Nat) : Bool := (k.srcX + k.srcY + t) % 2 == 0

/-- Whether a packet is held after a change of the ACTIVE ports of its role: it would now take a different port than before (R388). -/
def State.roleHeld (s : State) (role t : Nat) (k : LinkPkt) : Bool :=
  match listGet s.roleHolds role with
  | none => false
  | some before =>
    match portChoice before (evenChoice k t), portChoice (s.activePorts role) (evenChoice k t) with
    | some a, some b => a != b
    | _, _ => false

/-- The opposite role. -/
def oppositeRole (r : Nat) : Nat := if r % 2 = 1 then r + 1 else r - 1

/-- The class a packet leaves in, from the packet as it came (R389): the class it came in, 1 after the link that closes a ring, 0 at a change of
dimension and at a waypoint. -/
def State.nextClass (s : State) (k : LinkPkt) (from? : Option Nat) (role : Nat) : Nat :=
  match from? with
  | none => 0
  | some p =>
    let came := oppositeRole (s.roleOf p)
    let dim := (came - 1) / 2
    if came = 0 ∨ 6 < came ∨ came ≠ role ∨ k.way = some s.regs.device then 0
    else
      let c := coordOf s.regs.device dim
      let closes := s.regs.wraps dim && (if came % 2 = 1 then c == 0 else c + 1 == s.regs.size dim)
      if closes then 1 else k.cls

/-! ## States of a port (R391-R396) -/

/-- Whether a port may leave OFF: the link domain is released and supplied. -/
def State.portEnabled (s : State) (p : Nat) : Bool := s.roleOf p != 7 && !(s.port p).disable && s.clk.link.up && !(s.port p).cut

/-- Note a change of the ACTIVE ports of each role against a state before it (R388). -/
def State.noteRoles (s before : State) : State :=
  (List.range 7).foldl (fun (s : State) role =>
    let a := before.activePorts role
    if a = s.activePorts role ∨ a = [] then s
    else { s with roleHolds := listPut role ((listGet before.roleHolds role).getD a) s.roleHolds }) s

/-- This end's half of IDENTIFY (R391, R393). -/
def State.toldBy (s : State) (p : Nat) : Told :=
  { device := s.regs.device, written := s.regs.written, torus := s.regs.torus, role := s.roleOf p }

/-- A port changes state; on entering IDENTIFY it announces itself. -/
def State.setPortSt (s : State) (p : Nat) (st : LinkState) : State :=
  let v := s.port p
  (s.setPort p { v with st := st, left := v.left || (v.st == .detect && st != .detect), told := if st == .identify then v.told ++ [s.toldBy p] else v.told }).noteRoles s

/-- No unit of image data is in a port (R401). -/
def Port.imageEmpty (v : Port) : Bool :=
  v.imageHeld.isEmpty && !(v.recv.any fun k => k.kind == 8) && (v.part.isEmpty || (LinkPkt.ofUnits v.part).kind != 8)

/-- A port enters ACTIVE (R385, R399, R401): link credit full, all image credit granted in place of what was owed, owed credit sent. The windows of R394 begin
anew. -/
def State.enterActive (s : State) (p : Nat) : State :=
  let s := s.setPortSt p .active
  let v := s.port p
  let grant := s.roleOf p == 0 && v.imageEmpty
  let v := { v with credit := List.replicate 8 2048
                    waiting := if grant then v.waiting.filter fun k => !(k.kind == 7 && k.stream == 0xFFFF) else v.waiting
                    streamOwed := if grant then (v.streamOwed.filter fun a => a.1 != 0xFFFF) ++ [(0xFFFF, 2048)] else v.streamOwed
                    fecFlits := 0, fecLanes := List.replicate 16 0, sentFlits := 0, winReplays := 0 }
  (s.setPort p v).pump p

/-- Packets lost on leaving traffic: those with a unit in the replay buffer and the one received in part (R395). -/
def Port.lostSources (p : Port) : List W64 :=
  let sent := (p.replay.zipIdx).flatMap fun fi => if fi.1.cont && fi.2 != 0 then fi.1.sources.drop 1 else fi.1.sources
  sent ++ (if p.part.isEmpty then [] else [(LinkPkt.ofUnits p.part).source])

/-- The replay buffer and the packet held in part are discarded and counted (R395). The sequence numbers start again. -/
def Port.loseTraffic (p : Port) : Port :=
  let l := p.lostSources
  { p with cnt := if l.isEmpty then p.cnt else p.cnt.bump 3 l.length
           lostSrc := if p.lostSrc = 0 then l.headD 0 else p.lostSrc
           replay := [], part := [], sendSeq := 0, expect := 0, nakSent := false, replays := 0 }

/-- Credit on its way to the gateway is owed again, what else waits is taken out (R399). -/
def Port.unqueue (p : Port) : Port :=
  { p with waiting := []
           streamOwed := (p.waiting.filter fun k => k.kind == 7).foldl (fun l k => oweAdd l k.stream k.amount) p.streamOwed }

/-- A failed IDENTIFY: beside what R395 names, the packets held are discarded, and counted in the same way (R377). -/
def Port.loseHeld (p : Port) : Port :=
  let l := (p.waiting.filter fun k => k.kind != 7 && k.kind != 9).map (·.source)
  let q := p.loseTraffic.unqueue
  { q with cnt := if l.isEmpty then q.cnt else q.cnt.bump 3 l.length
           lostSrc := if q.lostSrc = 0 then l.headD 0 else q.lostSrc }

/-- Send a packet by the choice of R387 and R388 in a class; `src` is the port or attachment its loss counts at. The
answer's Bool is false when the packet has to stay where it is (R388). -/
def State.switchOut (s : State) (k : LinkPkt) (role t src cls : Nat) : State × Bool :=
  if s.roleHeld role t k then (s, false)
  else match portChoice (s.activePorts role) (evenChoice k t) with
    | none => (s.countPort src 4 1, true)
    | some p =>
      (s.enqueue p { k with flags := k.flags % 2 + 2 * cls, inlet := src }, true)

/-- Packets queued at a port that is not ACTIVE are steered again, in their class while their role stays the same (R389); one that has to be held stays.
Stream packets to a gateway meet a reset reader, and stream credit is owed again (R395, R399, R400). -/
def State.resteer (s : State) (p : Nat) : State :=
  let v := s.port p
  if v.st == .active || v.st == .retrain || v.st == .identify then s
  else
    let s := s.setPort p v.unqueue
    (v.waiting.filter fun k => k.kind != 6 && k.kind != 7 && k.kind != 9).foldl (fun (s : State) k =>
      match s.egress k with
        | .out role t k =>
          let (s, gone) := s.switchOut k role t k.inlet (if role = s.roleOf p then k.cls else 0)
          if gone then s else s.setPort p { s.port p with waiting := (s.port p).waiting ++ [k] }
        | _ => s.countPort k.inlet 4 1) s

/-- A port enters DOWN (R395); `los` says that its lanes have lost signal. -/
def State.enterDown (s : State) (p : Nat) (los : Bool) : State :=
  let lost := (s.port p).lostSources.length
  let s := s.setPort p { (s.port p).loseTraffic with los := los }
  ((s.setPortSt p .down).resteer p).event 0x07 [p, lost] none

/-- A port is held OFF, or let go to DETECT (R391). What it held is lost as on entering DOWN. -/
def State.applyEnable (s : State) (p : Nat) : State :=
  let st := (s.port p).st
  if s.portEnabled p then (if st == .off then s.setPortSt p .detect else s)
  else if st == .off then s
  else ((s.setPort p (s.port p).loseTraffic).setPortSt p .off).resteer p

/-- Ports that have passed LANE_MAP go back to IDENTIFY (R377). -/
def State.reidentify (s : State) : State :=
  (List.range 16).foldl (fun (s : State) p =>
    let st := (s.port p).st
    if st == .identify || st == .unnamed || st == .conflict || st == .mismatch || st == .active || st == .retrain then
      s.setPortSt p .identify
    else s) s

/-- The width of R392 that an aligned group of passing lanes allows, no wider than a limit: code, group. -/
def laneWidth (ok : W16) (limit : Nat) : Nat × Nat :=
  let all (lo n : Nat) : Bool := (List.range n).all fun i => ok.getLsbD (lo + i)
  if 3 ≤ limit ∧ all 0 16 = true then (3, 0)
  else match if 2 ≤ limit then (List.range 2).find? fun g => all (8 * g) 8 else none with
    | some g => (2, g)
    | none => match (List.range 4).find? fun g => all (4 * g) 4 with
      | some g => (1, g)
      | none => (0, 0)

/-- What LANE_MAP leaves in the port, and whether it has passed (R391, R392). -/
def Port.laneMap (v : Port) (m : LaneMap) (limit : Nat) : Port × Bool :=
  let (w, g) := laneWidth m.passing limit
  ({ v with width := w, group := g, reversed := m.reversed, polarity := m.polarity, failed := ~~~m.passing
            rtt := m.rttNs % 65536 }, decide (w ≠ 0 ∧ v.minWidth ≤ w ∧ m.rttNs ≤ 150))

/-- The device of this module's neighbour in a role's direction; none beyond an edge, or when it is the module itself (R393). -/
def Regs.neighbourDev (r : Regs) (role : Nat) : Option Nat :=
  let dim := (role - 1) / 2
  let c := coordOf r.device dim
  let n := r.size dim
  let c' : Option Nat :=
    if role % 2 = 1 then (if c + 1 < n then some (c + 1) else if r.wraps dim then some 0 else none)
    else (if 0 < c then some (c - 1) else if r.wraps dim then some (n - 1) else none)
  match c' with
  | none => none
  | some v =>
    let step := match dim with | 0 => 1 | 1 => 8 | _ => 64
    let d := r.device - c * step + v * step
    if d = r.device then none else some d

/-- The state IDENTIFY leads to (R393). -/
def State.identifyTo (s : State) (role : Nat) (peer : Peer) : LinkState :=
  let r := s.regs
  if role = 0 then (if peer.gateway then .active else .mismatch)
  else if !(r.written && peer.written) then .unnamed
  else if peer.device = r.device then .conflict
  else if peer.gateway = false ∧ peer.role = oppositeRole role ∧ peer.torus.toNat % 2 ^ 13 = r.torus.toNat ∧ r.neighbourDev role = some peer.device then
    .active
  else .mismatch

/-! ## Receiving (R379, R381, R385) -/

/-- Take one unit in: a packet is complete with its last unit. -/
def Port.takeUnit (p : Port) (u : Data) : Port :=
  let us := p.part ++ [u]
  if us.length < unitsDue us then { p with part := us }
  else { p with part := [], recv := p.recv ++ [LinkPkt.ofUnits us] }

/-- Unit i of a received flit, with the poison its header marks. -/
def flitUnit (hd : Nat) (b : List Byte) (i : Nat) : Data :=
  (((b.drop (8 + 32 * i)).take 32).zipIdx).map fun bi => (bi.1, hd.testBit (28 + 4 * i + bi.2 / 8))

/-- Replay every unacknowledged flit, in order. -/
def Port.replayAll (p : Port) : Port := (p.replay.map fun f => p.refresh f.bytes).foldl Port.putFlit p

/-- Drop acknowledged flits from the replay buffer. -/
def Port.acked (p : Port) (ack : Nat) : Port :=
  let first := p.sendSeq - p.replay.length
  let n := (ack + 1 + 4096 - first % 4096) % 4096
  if n = 0 ∨ p.replay.length < n then p else { p with replay := p.replay.drop n, replays := 0 }

/-- A NAK, with its ACK where that is meaningful (R378): every unacknowledged flit goes again, in order; the eighth replay without progress sends the
port to RETRAIN (R381, R394). -/
def State.nak (s : State) (p : Nat) (ack : Option Nat) : State :=
  let v := match ack with
    | some a => (s.port p).acked a
    | none => s.port p
  if v.replay.isEmpty then (s.setPort p v).pump p
  else
    let v := { v with replays := v.replays + 1, winReplays := v.winReplays + 1, cnt := v.cnt.bump 1 1 }
    let v := v.replayAll
    let s := s.setPort p v
    if 8 ≤ v.replays then (s.countPort p 2 1).setPortSt p .retrain else s.pump p

/-- Take the first received packet that a test admits; its units are returned as it goes onward (R385). -/
def State.takeRecv (s : State) (p : Nat) (f : LinkPkt → Bool) : Option (LinkPkt × State) :=
  let v := s.port p
  match v.recv.find? f with
  | none => none
  | some k =>
    let v := { v with recv := v.recv.erase k
                      owe := if k.kind = 9 then v.owe else v.owe.modify k.group (· + k.unitCount) }
    some (k, (s.setPort p v).pump p)

end Sys2Proof.Machine
end

