-- ==== Sys2Proof/Machine/Faulting.lean ====
section
/-! DEFINITION. Parcel faults, and what spanning trees on other modules hear of them (spec/07 R254, R259, R260, spec/13 R437, R439, R458, spec/11 R383,
R387, R388). -/

namespace Sys2Proof.Machine

/-! ## Packets of the module itself for other modules -/

/-- Give the transit switch a packet that comes from an attachment of port `src`: it goes out, is discarded and counted at that port, or is
held (11 R387, R388). -/
def State.sendAway (s : State) (k : LinkPkt) (src : Nat) : State :=
  match s.egress k with
  | .here _ => s.discard (s.placeField (.port src))
  | .discard => s.countPort src 4 1
  | .out role t k =>
    match s.switchOut k role t src 0 with
    | (s', true) => s'
    | (_, false) => { s with swHeld := s.swHeld ++ [(k, src)] }

/-- The packets that the switch holds try again, in order, once a hold has ended (11 R388). -/
def State.retryHeld (s : State) : State :=
  s.swHeld.foldl (fun (s : State) ks => s.sendAway ks.1 ks.2) { s with swHeld := [] }

/-- The 64-bit packet (08 R304). -/
def TallyPkt.word (t : TallyPkt) : Nat :=
  t.x % 2 ^ 11 + t.y % 2 ^ 10 * 2 ^ 11 + t.slot % 16 * 2 ^ 21 + t.kind % 8 * 2 ^ 25 + t.tree % 4096 * 2 ^ 28 + t.status % 4 * 2 ^ 40
    + t.tally % 65536 * 2 ^ 48

def TallyPkt.ofWord (n : Nat) : TallyPkt :=
  { srcX := 0, srcY := 0, x := bitsOf n 10 0, y := bitsOf n 20 11, slot := bitsOf n 24 21, kind := bitsOf n 27 25
    tree := bitsOf n 39 28, status := bitsOf n 41 40, tally := bitsOf n 63 48 }

/-- A tally packet for another module: a link packet of kind 5 with the packet in its data unit (11 R383). It leaves by the port nearest to its
source, through its source's crossing (08 R308). -/
def State.tallyAway (s : State) (t : TallyPkt) (dev : Nat) : State :=
  let port := s.nearestPort t.srcX t.srcY
  let k : LinkPkt := { kind := 5, flags := 0, stream := 0, amount := 0, dest := BitVec.ofNat 64 (globalAddr dev 0 0 0)
                       source := BitVec.ofNat 64 (globalAddr s.regs.device t.srcX t.srcY 0), signal := 0, way := none
                       data := cleanData (leBytes 8 t.word) }
  match s.fenceHit (fieldWalk (fieldOf t.srcX t.srcY) (s.placeField (.port port)) 8 ++ s.rimHop (.port port)) with
  | some f => s.discard f
  | none =>
    let (s, n) := s.tallyCopies [fieldOf t.srcX t.srcY]
    (List.replicate n k).foldl (fun (s : State) k => s.sendAway k port) s

/-- Alidade's loss notice for a tree to a module (07 R259, 11 R383); it enters the switch at port 0 (log entry 20). -/
def State.notice (s : State) (tree dev : Nat) : State :=
  s.sendAway { kind := 10, flags := 0, stream := tree, amount := 0, dest := BitVec.ofNat 64 (globalAddr dev 0 0 0)
               source := BitVec.ofNat 64 (globalAddr s.regs.device 0 0 0), signal := 0, way := none, data := [] } 0

/-- The modules that hear of the loss of a parcel with a spanning tree: every member when this module owns the tree, its owner when it
is a member (07 R259, R260). -/
def State.hearers (s : State) (tree : Nat) : List Nat :=
  let own := s.regs.device
  if Config.treeOwner tree = own then (Config.treeMembers tree).filter (· != own) else [Config.treeOwner tree]

/-- A parcel with spanning trees is lost: it faults, is released without KEEP_TREES, or the hold of its trees ends (07 R259, R260). -/
def State.noticeLost (s : State) (spans : List Nat) : State :=
  spans.foldl (fun (s : State) tree => (s.hearers tree).foldl (fun (s : State) d => s.notice tree d) s) s

/-! ## Faults -/

/-- A parcel faults (13 R437, R439): the first cause stands; a staged swap is refused (10 R371); other modules hear of it (07 R259). -/
def State.faultParcel (s : State) (n cause first : Nat) (trap : List Byte) (cycle epoch : Nat) : State :=
  match s.parcel n with
  | none => s
  | some p =>
    if p.fault.isSome then s
    else
      let f : ParcelFault := { cause := cause, first := first, trap := trap, cycle := cycle, epoch := epoch, rerun := false, reported := false }
      ((s.setParcel { p with fault := some f }).refuseSwap n).noticeLost p.spans

/-- What a report takes of a plot at its fault. -/
def State.faultParcelAt (s : State) (cause x y : Nat) : State :=
  let ph := s.phys x y
  let p := s.plot ph
  s.faultParcel p.parcel cause (s.plotAddr x y) (p.ctrlBytes (s.view ph) 0x200 0x30) (s.field (fieldOf x y)).cycles p.cnt.epoch

/-- A plot has entered FAULTED or raised a fault (13 R437, R458). -/
def State.noteFault (s : State) (x y : Nat) (entered : Bool) : State :=
  let f := fieldOf x y
  let v := s.field f
  let s := if !entered then s
    else if v.pending then s
    else s.setField f { v with pending := true, first := BitVec.ofNat 32 (x + y * 2 ^ 11 + 2 ^ 21) }
  s.faultParcelAt 1 x y

/-- Theodolite faults the parcel that owns a tree (08 R296, 13 R437). -/
def State.faultTree (s : State) (tree x y : Nat) : State :=
  match s.parcels.find? fun p => p.trees.contains tree with
  | none => s
  | some p =>
    let ph := s.phys x y
    s.faultParcel p.num 3 (s.plotAddr x y) ((s.plot ph).ctrlBytes (s.view ph) 0x200 0x30) (s.field (fieldOf x y)).cycles (s.plot ph).cnt.epoch

end Sys2Proof.Machine
end

