-- ==== Sys2Proof/Machine/Nonvol.lean ====
section
/-! DEFINITION. The survey record, the fuses and the journal (spec/12 R428, spec/13 R459-R463, R482, spec/16 R516, R520), and what
marks plots dead, fenced or under survey (spec/13 R447, R451, spec/10 R373). -/

namespace Sys2Proof.Machine

def Nv.fuse (n : Nv) (i : Nat) : W32 := cellGet 0 n.fuses i

/-- Program a fuse word: blown bits stay blown (R462). -/
def Nv.blow (n : Nv) (iw : Nat × W32) : Nv := { n with fuses := cellSet 0 iw.1 (n.fuse iw.1 ||| iw.2) n.fuses }

/-- The security state of fuse word 0 (16 R516): the highest bit blown. -/
def Nv.fusedState (n : Nv) : Nat :=
  let w := n.fuse 0
  if w.getLsbD 2 then 3 else if w.getLsbD 1 then 2 else if w.getLsbD 0 then 1 else 0

/-- The fused minimum firmware security version (R516). -/
def Nv.fusedSvn (n : Nv) : Nat := (List.range 32).foldl (fun k i => k + bit ((n.fuse 1).getLsbD i) 0) 0

def State.nvBlocked (s : State) : Bool := s.pwr.blockMain || s.pwr.blockStandby

/-! ## The journal (13 R460) -/

/-- Bytes 0x00 to 0x3F of an entry. -/
def JEntry.head (e : JEntry) : List Byte :=
  let fuse (i : Nat) : List Byte := match e.fuses[i]? with
    | some f => leBytes 4 f.1 ++ leBytes 4 f.2.toNat
    | none => zeros 8
  leBytes 8 0x31304C4E524A5141 ++ leBytes 8 e.txn ++ leBytes 4 e.ops.toNat ++ leBytes 1 e.select ++ zeros 3 ++ leBytes 4 e.surveySeq
    ++ leBytes 1 e.surveyDev ++ zeros 3 ++ fuse 0 ++ fuse 1 ++ zeros 16

/-- An entry of 256 bytes; an erased byte is 0xFF. -/
def JEntry.bytes (e : JEntry) : List Byte :=
  let mark (b : Bool) : List Byte := if b then leBytes 8 e.txn else List.replicate 8 0xFF
  e.head ++ sha512 e.head ++ (e.newDigest ++ zeros 64).take 64 ++ mark e.commit ++ mark e.done ++ List.replicate 48 0xFF

/-- Write an entry to the journal of both devices, each a ring of 1,024 entries. -/
def Nv.writeEntry (n : Nv) (e : JEntry) : Nv := { n with journals := n.journals.map fun j => (j ++ [e]).drop (j.length + 1 - 1024) }

/-- Program a field of a transaction's entry in one device. -/
def Nv.markEntry (n : Nv) (dev txn : Nat) (f : JEntry → JEntry) : Nv :=
  { n with journals := n.journals.modify dev fun j => j.map fun e => if e.txn = txn then f e else e }

/-- Program a field of a transaction's entries in both devices. -/
def Nv.markEntries (n : Nv) (txn : Nat) (f : JEntry → JEntry) : Nv := (n.markEntry 0 txn f).markEntry 1 txn f

/-- The entries, oldest first: those of device 0, which is written first and so holds every valid COMMIT (R460, R461). -/
def Nv.entries (n : Nv) : List JEntry := n.journals.headD []

/-! ## Transactions (R459, R461) -/

/-- The device that a transaction's entry names for image A (R460, R461). -/
def Nv.selected (n : Nv) (txn : Nat) : Nat := ((n.entries.find? fun e => e.txn == txn).map (·.select)).getD n.select

/-- Whether a transaction needs to wait out Squall before step 4: images, the boot selector, fuse requests (R461, R520). -/
def Txn.waitsSquall (t : Txn) : Bool := t.image.isSome || t.select || t.cmd.isSome

/-- The device whose image slot is image A after commit (R460). -/
def Txn.selectAfter (t : Txn) (n : Nv) : Nat := if t.select then 1 - n.select else n.select

/-- A transaction's entry: up to two fuse words (R460). -/
def Txn.entry (t : Txn) (n : Nv) : JEntry :=
  { txn := t.num, ops := BitVec.ofNat 4 (bit t.survey.isSome 0 + bit t.image.isSome 1 + bit t.select 2 + bit (!t.fuses.isEmpty) 3)
    select := t.selectAfter n, surveySeq := (t.survey.map (·.seq)).getD 0, surveyDev := t.copyDev, fuses := t.fuses.take 2
    newDigest := (t.image.map (·.digest)).getD (zeros 64), commit := false, done := false }

/-- Step 1: new data goes only to places not in use. -/
def Nv.stageTxn (n : Nv) (t : Txn) : Nv :=
  let n := match t.image with
    | some i => { n with slots := n.slots.set (1 - n.select) i }
    | none => n
  match t.survey with
  | some v => { n with copies := n.copies.set (1 - n.used) v }
  | none => n

/-- Step 2: what stands in the places written is the new data. -/
def Nv.checksTxn (n : Nv) (t : Txn) : Bool :=
  (match t.image with
   | some i => n.slots[1 - n.select]? == some i
   | none => true)
    && (match t.survey with
        | some v => n.copies[t.copyDev]? == some v
        | none => true)

/-- Step 5: the fuse words are programmed, the new survey copy is written over the other device's. -/
def Nv.applyTxn (n : Nv) (t : Txn) : Nv :=
  let n := t.fuses.foldl Nv.blow n
  match t.survey with
  | some v => { n with copies := [v, v] }
  | none => n

/-- The next step of a transaction (R461); one whose data does not check is written again. Step 4 programs device 0's entry, which commits the
transaction and activates what the entry names, and then device 1's (the order: DESIGN CHOICE, log entry 81). -/
def Nv.stepTxn (n : Nv) (t : Txn) : Nv × Txn :=
  match t.step with
  | 0 => (n.stageTxn t, { t with step := 1, copyDev := 1 - n.used })
  | 1 => (n, { t with step := if n.checksTxn t then 2 else 0 })
  | 2 => (n.writeEntry (t.entry n), { t with step := 3 })
  | 3 => ({ n.markEntry 0 t.num fun e => { e with commit := true } with select := n.selected t.num }, { t with step := 4 })
  | 4 => (n.markEntry 1 t.num fun e => { e with commit := true }, { t with step := 5 })
  | 5 => (n.applyTxn t, { t with step := 6 })
  | _ => (n.markEntries t.num fun e => { e with done := true }, { t with step := 7 })

/-- Steps 1 to 3 in turn, as FW_STAGE runs them (15 R508). -/
def Nv.stageAll (n : Nv) (t : Txn) : Nv × Txn :=
  let (n, t) := n.stepTxn { t with step := 0 }
  let (n, t) := n.stepTxn t
  if t.step = 2 then n.stepTxn t else (n, t)

/-- The first waiting transaction takes its next step, while Compass is at work and no block holds (R461, R482; log entry 81); the second
completion of a command follows when DONE of its last transaction is programmed (15 R508). -/
def State.stepWork (s : State) : State :=
  match s.nv.work with
  | [] => s
  | t :: rest =>
    if !s.serves .compass || s.nvBlocked || (t.step == 3 && t.waitsSquall && s.pwr.state == .squall) then s
    else
      let (n, t) := s.nv.stepTxn t
      if t.step < 7 then { s with nv := { n with work := t :: rest } }
      else
        let s := { s with nv := { n with work := rest } }
        match t.cmd, t.last with
        | some c, true => s.second c stOk [t.num]
        | _, _ => s

def State.queueTxn (s : State) (t : Txn) : State := { s with nv := { s.nv with nextTxn := s.nv.nextTxn + 1, work := s.nv.work ++ [t] } }

/-- A transaction that writes the survey record alone. -/
def surveyTxn (num : Nat) (v : Survey) : Txn :=
  { num := num, image := none, survey := some v, select := false, fuses := [], step := 0, copyDev := 0, cmd := none, last := true }

/-- Change the survey record: in use at once, and written to flash by a journalled transaction (R428, R459, R482). -/
def State.survey (s : State) (f : Survey → Survey) : State :=
  let v := f s.nv.survey
  let v := { v with seq := v.seq + 1 }
  ({ s with nv := { s.nv with survey := v } }).queueTxn (surveyTxn s.nv.nextTxn v)

/-! ## After a reset or a restart (R462, R463) -/

/-- A survey copy of a device is made invalid. -/
def Nv.spoil (n : Nv) (dev : Nat) : Nv := { n with copies := n.copies.modify dev fun v => { v with good := false } }

/-- Steps 5 and 6 of an entry's transaction (R462). -/
def Nv.finish (n : Nv) (e : JEntry) : Nv :=
  let n := e.fuses.foldl Nv.blow n
  let n := match e.ops.getLsbD 0, n.copies[e.surveyDev]? with
    | true, some v => { n with copies := [v, v] }
    | _, _ => n
  n.markEntries e.txn fun e => { e with done := true }

/-- What is committed but not done is finished; else a latest entry that is not committed is discarded (R462; log entry 80): the state after, and what
DETAIL[2] of S1 reports. -/
def Nv.settle (n : Nv) : Nv × Nat :=
  match n.entries.filter fun e => e.commit && !e.done, n.entries.getLast? with
  | e :: l, _ => ((e :: l).foldl Nv.finish n, 1)
  | [], none => (n, 0)
  | [], some e => if e.commit then (n, 0) else (if e.ops.getLsbD 0 then n.spoil e.surveyDev else n, 2)

/-- A transaction that stands before step 4 ends with the processor's memory; the survey copy that it had begun to write is made invalid even where no
entry names it yet, since R463 keeps the old record in use (log entry 80). -/
def Nv.dropTxn (n : Nv) (t : Txn) : Nv := if t.survey.isSome && decide (1 ≤ t.step ∧ t.step < 3) then n.spoil t.copyDev else n

/-- Compass goes on with its transactions: first it settles what a restart under a non-volatile block has left, and answers the commands whose transactions were
committed (R462, R482, 15 R507). -/
def State.runWork (s : State) : State :=
  match s.nv.due with
  | none => s.stepWork
  | some l =>
    if !s.serves .compass || s.nvBlocked then s
    else
      let (n, _) := (l.foldl Nv.dropTxn s.nv).settle
      l.foldl (fun (s : State) t => match t.cmd, t.last with
        | some c, true => if 4 ≤ t.step then s.respond c 2 stOk [t.num] none true else s
        | _, _ => s) { s with nv := { n with due := none } }

/-- What flash and the fuses hold. -/
def Nv.flash (n : Nv) : List (Nat × W32) × List Image × List Survey × List (List JEntry) := (n.fuses, n.slots, n.copies, n.journals)

/-- Insert into a rising list. -/
def insertNat (k : Nat) : List Nat → List Nat
  | [] => [k]
  | a :: r => if a = k then a :: r else if k < a then k :: a :: r else a :: insertNat k r

/-- The gazetteer version counts one more change (10 R373). -/
def Survey.bump (v : Survey) : Survey := { v with version := v.version + 1 }

/-- A plot goes under survey (13 R447). -/
def State.underSurvey (s : State) (phys : Nat) : State :=
  let p := s.plot phys
  if p.underSurvey && s.nv.survey.under.contains phys then s
  else
    (s.setPlot phys { p with underSurvey := true }).survey fun v => { v with under := insertNat phys v.under }

/-- A plot leaves the under-survey set (13 R447). -/
def State.clearSurvey (s : State) (phys : Nat) : State :=
  (s.setPlot phys { s.plot phys with underSurvey := false }).survey fun v => { v with under := v.under.filter (· != phys) }

/-- PLOT_CTRL.FENCE is set (12 R426, 13 R437): the plot is FENCED, its loaded parcel faults. -/
def State.fencePlot (s : State) (phys : Nat) : State :=
  let p := s.plot phys
  let parcel := p.parcel
  let s := s.setPlot phys { p with fence := true, st := .fenced, seq := { p.seq with ops := [], firings := [], switching := none, gen := none } }
  match logicalOf s.nv.survey.proj phys with
  | none => s
  | some q => if parcel = 0 then s else s.faultParcelAt 2 q.x q.y

/-- A plot found dead after S8 (13 R451): fenced, marked, reported; the version is raised once for the event or command that finds it, be it one of
several (10 R373). -/
def State.plotDeadIn (s : State) (phys : Nat) (first : Bool) : State :=
  let s := s.fencePlot phys
  let p := s.plot phys
  let s := s.setPlot phys { p with test := { p.test with dead := true } }
  let s := s.survey fun v =>
    let v : Survey := { v with dead := insertNat phys v.dead }
    if first then v.bump else v
  let addr := match logicalOf s.nv.survey.proj phys with
    | some q => s.plotAddr q.x q.y
    | none => 0
  s.event 0x0B [addr, s.nv.survey.version] none

def State.plotDead (s : State) (phys : Nat) : State := s.plotDeadIn phys true

/-- Corrections and uncorrectable errors found in a plot's memory bear on its survey (13 R447): more than 64 corrected within an
hour, or one uncorrectable. Times are in reference cycles. -/
def State.noteEcc (s : State) (phys corrected uncorrectable : Nat) : State :=
  let now := s.clk.count
  let recent := s.svc.corrected.filter fun c => decide (now < c.2 + 360000000000)
  let all := recent ++ List.replicate corrected (phys, now)
  let s := if corrected = 0 then s else { s with svc := { s.svc with corrected := all } }
  let many := decide (64 < (all.filter fun c => c.1 == phys).length) && corrected != 0
  let s := if uncorrectable ≠ 0 ∨ many = true then { s with svc := { s.svc with passes := listDel phys s.svc.passes } } else s
  if uncorrectable ≠ 0 ∨ many = true then s.underSurvey phys else s

/-- A rising list of set bits as bytes: one walk over the bytes. -/
def bitmapGo : Nat → Nat → List Nat → List Byte
  | 0, _, _ => []
  | n + 1, i, l =>
    let here := l.takeWhile fun k => k / 8 == i
    BitVec.ofNat 8 (here.foldl (fun b k => b ||| 2 ^ (k % 8)) 0) :: bitmapGo n (i + 1) (l.drop here.length)

def projGo : Nat → Nat → List (Nat × Nat) → List Byte
  | 0, _, _ => []
  | n + 1, i, l =>
    match l with
    | (k, q) :: r => if k = i then BitVec.ofNat 8 q :: projGo n (i + 1) r else 25 :: projGo n (i + 1) l
    | [] => 25 :: projGo n (i + 1) []

/-- A survey copy (R428) with a digest field; the stitch map's and the training values' own layouts are not given, and are kept as
spare places and repair counts in the first bytes of their parts (log entry 5). -/
def Survey.bytes (v : Survey) (idDigest dig : List Byte) : List Byte :=
  leBytes 8 0x3159565255535141 ++ leBytes 4 1 ++ leBytes 4 v.seq ++ leBytes 4 v.version ++ leBytes 4 v.conns.length
    ++ leBytes 8 (v.fenced.foldl (fun n f => n ||| 2 ^ f) 0) ++ idDigest
    ++ leBytes 4 (v.retired.foldl (fun n c => n ||| 2 ^ c) 0) ++ leBytes 4 v.dead.length ++ zeros 88 ++ dig
    ++ projGo 36864 0 v.proj ++ bitmapGo 119808 0 v.dead ++ bitmapGo 119808 0 v.under
    ++ ((List.range 130).flatMap fun j => ((List.range 64).map fun i => BitVec.ofNat 8 (((cellGet [] v.stitch j)[i]?).getD 0)))
    ++ v.conns.flatMap (fun c => leBytes 8 (c.1 + c.2 * 2 ^ 20)) ++ zeros (32768 - 8 * v.conns.length)
    ++ ((List.range 24).flatMap fun c => leBytes 8 (cellGet 0 v.training c) ++ zeros 8184) ++ zeros 9856

def Survey.digest (v : Survey) (idDigest : List Byte) : List Byte := sha512 (v.bytes idDigest (zeros 64))

end Sys2Proof.Machine
end

