-- ==== Sys2Proof/Machine/PlotRun.lean ====
section
/-! DEFINITION. One event of one plot, over the whole state: the plot is set to work with its neighbours, what it sends goes to the
networks, errors found in its memory reach the survey, a fault it raises reaches its field and parcel (spec/02 R54, R55, R87, spec/13 R437, R458). -/

namespace Sys2Proof.Machine

/-- A logical neighbour that a plot may reach: same field, alive, same parcel (R55). -/
def State.neighbour (s : State) (x y dir parcel : Nat) : Option (Nat × Plot) :=
  match neighbourXY x y dir with
  | none => none
  | some q =>
    let ph := s.phys q.x q.y
    let p := s.plot ph
    if s.alive ph && p.parcel == parcel && parcel != 0 then some (ph, p) else none

/-- The plot at (x, y) ready for an event; none when it is off the grid or does not work (R23, 08 R293). -/
def State.runAt (s : State) (x y : Nat) : Option Run :=
  if !onGrid x y then none
  else
    let ph := s.phys x y
    if !s.alive ph then none
    else
      let p := s.plot ph
      some { p := p, phys := ph, x := x, y := y, dev := s.regs.device, id := s.plotId ph
             nbrs := (List.range 4).map fun d => (s.neighbour x y d p.parcel).map (·.2)
             pkts := [], tallies := [], cycle := (s.field (fieldOf x y)).cycles, free := s.freeCtr, test := false, wrote := [] }

/-- A leaf's tally on its way to its parent (07 R254): addressed to the parent's plot and slot, or, where the parent is on another
module, to the owner device (kind 0 with an x beyond the grid; it leaves by a port). -/
def State.addressTally (s : State) (t : TallyPkt) : TallyPkt :=
  let nodes := s.nodes t.tree
  match nodes.find? fun n => n.x == t.srcX && n.y == t.srcY && n.k == t.slot with
  | none => t
  | some n =>
    match parentOf nodes n with
    | some m => { t with x := m.x, y := m.y, slot := m.k }
    | none => { t with x := 2047, y := 0, slot := 0 }

/-- The drain's interval flag (05 R206): the plot stays quiescent throughout, whatever its state. -/
def Plot.noteQuiet (p : Plot) : Plot := { p with watch := { p.watch with quiet := p.watch.quiet && p.quiescentNow } }

/-- Put a plot back; errors found in its memory bear on its survey (13 R447). -/
def State.putPlot (s : State) (phys : Nat) (old new : Plot) : State :=
  let rose (k : Nat) : Nat := ((new.cnt.now[k]?).getD 0 + 2 ^ 32 - (old.cnt.now[k]?).getD 0) % 2 ^ 32
  (s.setPlot phys new).noteEcc phys (rose cEccCorr) (rose cEccPoison)

/-- Put a plot's work back. -/
def State.putRun (s : State) (old : Plot) (r : Run) : State :=
  let s := { s with freeCtr := r.free }
  let s := (r.nbrs.zipIdx).foldl (fun (s : State) nd =>
    match nd.1, s.neighbour r.x r.y nd.2 old.parcel with
    | some q, some (ph, q0) => s.putPlot ph q0 q
    | _, _ => s) s
  let s := s.putPlot r.phys old r.p.noteQuiet
  let s := r.tallies.foldl (fun (s : State) t => s.putTally (s.addressTally t)) s
  let s := r.pkts.foldl State.putPacket s
  let entered := r.p.st == .faulted && old.st != .faulted
  let raised := decide (r.p.trap.fault ≠ old.trap.fault)
  if entered || raised then s.noteFault r.x r.y entered else s

/-- One event at a logical plot; nothing where the plot does not work. -/
def State.onPlot (s : State) (q : XY) (f : Run → Run) : State :=
  match s.runAt q.x q.y with
  | none => s
  | some r => s.putRun r.p (f r)

/-- The same with a discarded packet counted in the plot's field. -/
def State.onPlotCount (s : State) (x y : Nat) (f : Run → Run × Bool) : State :=
  match s.runAt x y with
  | none => s
  | some r =>
    let (r', d) := f r
    let s := s.putRun r.p r'
    if d then s.discard (fieldOf x y) else s

/-- Every plot of a parcel in turn. -/
def State.onParcel (s : State) (p : Parcel) (f : Run → Run) : State := p.plots.foldl (fun s q => s.onPlot q f) s

/-- Every plot of a parcel that has supply and is fenced or dead: it does by itself what it still has to, and sends nothing (08 R293). -/
def State.onDead (s : State) (p : Parcel) (f : Plot → Plot) : State :=
  p.plots.foldl (fun (s : State) q =>
    let ph := s.phys q.x q.y
    if onGrid q.x q.y && s.powered (fieldOf q.x q.y) && !s.alive ph then s.setPlot ph (f (s.plot ph)) else s) s

/-- Every plot of a parcel that works, changed without its sequencer. -/
def State.mapParcel (s : State) (p : Parcel) (f : Plot → Plot) : State :=
  p.plots.foldl (fun (s : State) q =>
    let ph := s.phys q.x q.y
    if onGrid q.x q.y && s.alive ph then s.setPlot ph (f (s.plot ph)) else s) s

/-- The plots of a parcel that exist as plots. -/
def State.parcelPlots (s : State) (p : Parcel) : List (XY × Plot) := p.plots.map fun q => (q, s.plot (s.phys q.x q.y))

/-- Every plot of a parcel has ended. -/
def State.allEnded (s : State) (p : Parcel) : Bool :=
  (s.parcelPlots p).all fun qp => s.alive (s.phys qp.1.x qp.1.y) && qp.2.seq.ended

/-- The progress watchdog of a parcel counts: it is running, not every plot of it has ended (05 R199), and none is halted (16 R528). -/
def State.watchArmed (s : State) (p : Parcel) : Bool :=
  p.phase == .running && !(s.parcelPlots p).any (fun qp => qp.2.seq.halted) && !s.allEnded p

end Sys2Proof.Machine
end

