-- ==== Sys2Proof/Machine/Trees.lean ====
section
/-! DEFINITION. Contour trees (spec/07 R252-R262, spec/08 R304-R306, R296, spec/13 R455): arrivals, returns, lost trees, spanning trees. -/

namespace Sys2Proof.Machine

/-! ## The plot a packet reaches -/

/-- A node's slot, changed. -/
def State.setSlotAt (s : State) (phys k : Nat) (v : Slot) : State := s.setPlot phys ((s.plot phys).setSlot k v)

/-- The slot a packet names at a plot that works: none when the router holds no slot of its tree there. -/
def State.slotFor (s : State) (x y k tree : Nat) : Option (Nat × Slot) :=
  if !onGrid x y then none
  else
    let ph := s.phys x y
    let v := (s.plot ph).slot k
    if s.alive ph && v.role != 0 && v.tree == tree then some (ph, v) else none

/-- A Nimbus packet by its place. -/
def State.takeTally (s : State) (n : Nat) (kinds : List Nat) : Option (TallyPkt × State) :=
  match s.nimbus[n]? with
  | none => none
  | some t =>
    if !kinds.contains t.kind then none else some (t, { s with nimbus := s.nimbus.eraseIdx n })

/-- Whether a packet is stopped on its way, and where: Nimbus routes by 08 R284 alone (R294, R306). -/
def State.tallyStop (s : State) (t : TallyPkt) : Option Nat := s.fenceHit (fieldWalk (fieldOf t.srcX t.srcY) (fieldOf t.x t.y) 8)

/-- A Nimbus packet with a parity error is discarded and counted at its destination's field, and the parcel that owns its tree faults (08 R296, 13 R437). -/
def State.badParity (s : State) (t : TallyPkt) : State := (s.countNet (fieldOf t.x t.y) 3 1).faultTree t.tree t.x t.y

/-! ## Reports on the drain tree (05 R198, R199, R206, 08 R304) -/

/-- A progress mark (kind 3), quiescence report (4) or expiry report (5) of a plot, addressed to the root of its parcel's drain tree. -/
def State.reportPkt (s : State) (q : Parcel) (p : XY) (kind tally : Nat) : TallyPkt :=
  let t : TallyPkt := { srcX := p.x, srcY := p.y, x := p.x, y := p.y, slot := 0, kind := kind, tree := q.drainTree, status := 0, tally := tally }
  match (s.nodes q.drainTree).find? fun n => n.slot.root with
  | some n => { t with x := n.x, y := n.y, slot := n.k }
  | none => t

/-- The report's way to the root: whether it gets there; a fence, a root's plot that does not work, or a parity error discards it and counts it
(08 R293, R296), and a failing crossing can lose it (08 R308). -/
def State.reportUp (s : State) (q : Parcel) (p : XY) (kind tally : Nat) (parityOk : Bool) : State × Bool :=
  let t := s.reportPkt q p kind tally
  if !parityOk then (s.badParity t, false)
  else match s.tallyStop t with
    | some f => (s.discard f, false)
    | none =>
      if onGrid t.x t.y && !s.alive (s.phys t.x t.y) then (s.discard (fieldOf t.x t.y), false)
      else
        let (s, n) := s.tallyCopies [fieldOf p.x p.y, fieldOf t.x t.y]
        (s, n != 0)

/-! ## Phases (R254, R305) -/

/-- Return a result from an interior node to its children: a segment by one flooded packet, any other node by one packet a child host, a
link node to the member modules too. -/
def State.returnDown (s : State) (n : Node) (result status : Nat) : State :=
  let t : TallyPkt := { srcX := n.x, srcY := n.y, x := n.x / 30 * 30, y := n.y, slot := 0, kind := 2, tree := n.slot.tree, status := status
                        tally := result }
  if n.slot.role = 2 then s.putTally t
  else
    let nodes := s.nodes n.slot.tree
    let down := (childrenOf nodes n).map fun m => { t with x := m.x, y := m.y, slot := m.k, kind := 1 }
    let s := s.putTallies down
    if n.slot.role = 5 then
      (Config.treeMembers n.slot.tree).foldl (fun (s : State) d =>
        if d = s.regs.device then s else s.tallyAway { t with x := 2047, y := 0, slot := 0, kind := 1 } d) s
    else s

/-- An interior node passes a completed phase on: down at the root, up elsewhere, to the owner module from a device node that has no
parent here. -/
def State.nodeFull (s : State) (n : Node) (tally status : Nat) : State :=
  if n.slot.root then
    let s := s.setSlotAt n.phys n.k ((n.slot.setCount 0 0).complete tally status)
    s.returnDown n tally status
  else
    let s := s.setSlotAt n.phys n.k (n.slot.setCount 0 0)
    let t : TallyPkt := { srcX := n.x, srcY := n.y, x := 2047, y := 0, slot := 0, kind := 0, tree := n.slot.tree, status := 0, tally := tally }
    match parentOf (s.nodes n.slot.tree) n with
    | some m => s.putTally { t with x := m.x, y := m.y, slot := m.k }
    | none => if n.slot.spans then s.tallyAway t (Config.treeOwner n.slot.tree) else s

/-- Children whose arrivals a phase at a node takes: a root no longer waits for the members it has lost (R260; log entry 24). -/
def Slot.awaits (v : Slot) : Nat := v.expect - v.gone.length

/-- The status of a phase that a root ends: MEMBER_LOST once it has lost a member (R260). -/
def Slot.endStatus (v : Slot) : Nat := if v.gone.isEmpty then 0 else 2

/-- A tally reaches an interior node (R254); under a lost member the root's phases end with MEMBER_LOST (R260). -/
def State.nodeTally (s : State) (x y phys k : Nat) (v : Slot) (tally : Nat) : State :=
  let total := combineTally v.oper v.tally tally
  let count := v.count + 1
  let n : Node := ⟨x, y, phys, k, v⟩
  if v.awaits ≤ count then s.nodeFull n total v.endStatus
  else s.setSlotAt phys k (v.setCount count total)

/-- A packet held at a slot that is not active (R261). -/
def State.holdTally (s : State) (phys k : Nat) (v : Slot) (t : TallyPkt) : State := s.setSlotAt phys k { v with held := v.held ++ [t] }

/-- 07 R254, 08 R296, R305, 13 R437. A packet that a loss has overtaken at its slot is discarded (08 R305, 13 R455). -/
def execTallyArrival (n : Nat) (parityOk : Bool) (s : State) : Host.Outcome State Fault Refusal :=
  match s.takeTally n [0] with
  | none => .next s
  | some (t, s) =>
    if !parityOk then .next (s.badParity t)
    else match s.tallyStop t with
      | some f => .next (s.discard f)
      | none =>
        match s.slotFor t.x t.y t.slot t.tree with
        | none => .next (s.discard (fieldOf t.x t.y))
        | some (ph, v) =>
          if v.role = 1 ∨ v.lost ≠ 0 then .next (s.discard (fieldOf t.x t.y))
          else if !v.active then .next (s.holdTally ph t.slot v t)
          else .next (s.nodeTally t.x t.y ph t.slot v t.tally)

/-- A return from the parent reaches an interior node (R254, 08 R296), or is discarded there once the tree is lost (08 R305, 13 R455). -/
def execTallyReturnArrival (a : TallyIn) (s : State) : Host.Outcome State Fault Refusal :=
  match s.nimbus[a.n]? with
  | none => .next s
  | some t =>
    let node := s.slotFor t.x t.y t.slot t.tree
    let leaf := match node with | some (_, v) => v.role == 1 | none => false
    if t.kind ≠ 1 ∨ leaf = true then .next s
    else
      let s := { s with nimbus := s.nimbus.eraseIdx a.n }
      if !a.parityOk then .next (s.badParity t)
      else match s.tallyStop t, node with
      | some f, _ => .next (s.discard f)
      | none, none => .next (s.discard (fieldOf t.x t.y))
      | none, some (ph, v) =>
        if v.lost ≠ 0 then .next (s.discard (fieldOf t.x t.y))
        else if !v.active then .next (s.holdTally ph t.slot v t)
        else
          let s := s.setSlotAt ph t.slot (v.complete t.tally t.status)
          .next (s.returnDown ⟨t.x, t.y, ph, t.slot, v⟩ t.tally t.status)

/-- A return at one leaf slot. -/
def State.leafTake (s : State) (phys k : Nat) (v : Slot) (t : TallyPkt) : State :=
  if !v.active then s.holdTally phys k v t else s.setPlot phys ((s.plot phys).leafDone k t.tally t.status)

/-- The leaf slots of a tree at a plot that works. -/
def State.leavesAt (s : State) (x y tree : Nat) : List (Nat × Nat × Slot) :=
  if !onGrid x y then []
  else
    let ph := s.phys x y
    if !s.alive ph then []
    else (((s.plot ph).slots.zipIdx).filter fun vk => vk.1.role == 1 && vk.1.tree == tree).map fun vk => (ph, vk.2, vk.1)

/-- A return reaches a leaf, or floods the plots of a segment (R254, R257, 08 R296, R305); a leaf of a lost tree takes none (13 R455). -/
def execLeafReturn (a : TallyIn) (s : State) : Host.Outcome State Fault Refusal :=
  match s.nimbus[a.n]? with
  | none => .next s
  | some t =>
    let one := match s.slotFor t.x t.y t.slot t.tree with
      | some (ph, v) => if v.role = 1 then [(ph, t.slot, v)] else []
      | none => []
    if ¬ (t.kind = 2 ∨ (t.kind = 1 ∧ one ≠ [])) then .next s
    else
      let s := { s with nimbus := s.nimbus.eraseIdx a.n }
      if !a.parityOk then .next (s.badParity t)
      else match s.tallyStop t with
      | some f => .next (s.discard f)
      | none =>
        let leaves := (if t.kind = 1 then one else (List.range 30).flatMap fun i => s.leavesAt (t.x + i) t.y t.tree).filter fun l => l.2.2.lost == 0
        if leaves.isEmpty then .next (s.discard (fieldOf t.x t.y))
        else .next (leaves.foldl (fun (s : State) l => s.leafTake l.1 l.2.1 l.2.2 t) s)

/-! ## Lost trees (R259, R260, 13 R455) -/

/-- A slot of a lost tree completes its pending phase, and every later one, with a status and RESULT 0. `pending` says that an arrival waits
below an interior slot. -/
def Plot.loseSlot (p : Plot) (k status : Nat) (pending : Bool) : Plot :=
  let v := p.slot k
  let p := p.setSlot k { v with lost := status }
  if v.role = 1 then (if v.arrived then p.leafDone k 0 status else p)
  else if pending || decide (0 < v.count) then p.setSlot k { (v.setCount 0 0).complete 0 status with lost := status }
  else p

/-- A phase is under way at an interior node: a leaf under it has arrived and has no result yet (R254). -/
def phasePending (nodes : List Node) (n : Node) : Bool :=
  nodes.any fun m => m.slot.role == 1 && m.slot.arrived && covers n.slot.role n.x n.y m.x m.y

/-- Every slot of a tree that the broadcast reaches: none of a lost field (13 R455, 08 R300). -/
def State.loseTree (s : State) (tree status : Nat) : State :=
  let nodes := s.nodes tree
  (nodes.filter fun n => s.selects .all n.phys).foldl (fun (s : State) n =>
    s.setPlot n.phys ((s.plot n.phys).loseSlot n.k status (phasePending nodes n))) s

/-- The owner's root when a member device is lost: it completes the current phase with what has reached it, and every later phase with
MEMBER_LOST, without that member (R260; log entry 24). A member is lost once, however often it is told. -/
def State.loseMember (s : State) (tree dev : Nat) : State :=
  match (s.nodes tree).find? fun n => n.slot.role == 5 with
  | none => s
  | some n =>
    if n.slot.gone.contains dev then s
    else
      let v := { n.slot with gone := n.slot.gone ++ [dev] }
      let s := s.setSlotAt n.phys n.k v
      if 0 < v.count then s.nodeFull { n with slot := v } v.tally 2 else s

/-- The effect at this module of a loss that a device tells of: OWNER_LOST at a member, MEMBER_LOST at the owner (R260). -/
def State.treeLost (s : State) (tree dev : Nat) : State :=
  if (s.nodes tree).any fun n => n.slot.role == 5 then s.loseMember tree dev else s.loseTree tree 1

/-- 07 R260: a notice that a link has brought. -/
def execLossNoticeArrival (tree : Nat) (s : State) : Host.Outcome State Fault Refusal :=
  match s.notices.find? fun n => n.1 == tree with
  | none => .next s
  | some n => .next (({ s with notices := s.notices.erase n }).treeLost tree n.2)

/-- The switch does not discard the packet, and the role it leaves by has an ACTIVE port (11 R387, R388). -/
def Egress.goes (e : Egress) (s : State) : Bool :=
  match e with
  | .here _ => true
  | .discard => false
  | .out role _ _ => !(s.activePorts role).isEmpty

/-- A route to another module exists: the transit switch sends a packet for it to a role that has an ACTIVE port (11 R387, R388). -/
def State.hasRoute (s : State) (dev : Nat) : Bool :=
  (s.egress { kind := 10, flags := 0, stream := 0, amount := 0, dest := BitVec.ofNat 64 (globalAddr dev 0 0 0), source := 0, signal := 0
              way := none, data := [] }).goes s

/-- 07 R259, R260: no route to the owner of a spanning tree for 2^20 reference cycles, and with the roles reversed none to a member, decides at this
module's Nimbus root. -/
def execOwnerRouteTimeout (tree : Nat) (s : State) : Host.Outcome State Fault Refusal :=
  let owner := Config.treeOwner tree
  if !(s.nodes tree).any fun n => n.slot.spans then .next s
  else if owner = s.regs.device then
    .next (((Config.treeMembers tree).filter fun d => d != owner && !s.hasRoute d).foldl (fun (s : State) d => s.loseMember tree d) s)
  else .next (if s.hasRoute owner then s else s.loseTree tree 1)

/-- 13 R455: the field is lost, and Theodolite is at work. -/
def execTreeLossBroadcast (field : Nat) (s : State) : Host.Outcome State Fault Refusal :=
  if !s.serves .theodolite || (s.powered field && !(s.field field).fenced) then .next s
  else
  let trees := ((s.plots.filter fun pp => fieldOfPhys pp.1 == field).flatMap fun pp =>
    (pp.2.slots.filter fun v => v.role != 0).map Slot.tree).eraseDups
  .next (trees.foldl (fun (s : State) t => s.loseTree t 2) s)

/-- Slots of a parcel become active together, and held packets proceed (R261). -/
def State.activate (s : State) (p : Parcel) : State :=
  p.plots.foldl (fun (s : State) q =>
    let ph := s.phys q.x q.y
    let pl := s.plot ph
    if pl.slots.all fun v => v.role == 0 then s
    else
      let held := pl.slots.flatMap (·.held)
      let slots := pl.slots.map fun v => if v.role = 0 then v else { v.setActive true with held := [] }
      { (s.setPlot ph { pl with slots := slots }) with nimbus := s.nimbus ++ held }) s

end Sys2Proof.Machine
end

