-- ==== Sys2Proof/WellFormed.lean ====
section
/-! DEFINITION. Which commands name things that exist (spec/01 R18-R34, spec/12 R419): plots on the grid, fields 0-47, controllers
0-23, ports 0-15, joins 0-129, parcels 1-255, and register accesses of 4 or 8 bytes (spec/02 R88). `exec` is total: a command that is
not well-formed names nothing and does nothing. -/

namespace Sys2Proof

def physOk (n : Nat) : Bool := decide (n < 958464)
def fieldOk (n : Nat) : Bool := decide (n < 48)
def stackOk (n : Nat) : Bool := decide (n < 24)
def portOk (n : Nat) : Bool := decide (n < 16)
def ringOk (n : Nat) : Bool := decide (n < 8)
def ruleOk (n : Nat) : Bool := decide (n < 2)
def parcelOk (n : Nat) : Bool := decide (1 ≤ n ∧ n ≤ 255)
def treeOk (n : Nat) : Bool := decide (n < 4096)
def sizeOk (n : Nat) : Bool := n == 4 || n == 8

/-- A page of the paged window (08 R298). -/
def pageOk (n : Nat) : Bool := decide (n < 1024)

/-- An aligned access of 4 or 8 bytes inside a region of so many bytes (02 R88, 08 R298). -/
def spanOk (room off size : Nat) : Bool := sizeOk size && off % size == 0 && decide (off + size ≤ room)

/-- An access through a page (08 R298): whole words; one of 8 bytes is naturally aligned, a larger one is split. -/
def pageSpanOk (off size : Nat) : Bool :=
  size % 4 == 0 && off % 4 == 0 && decide (4 ≤ size ∧ off + size ≤ 4096) && (size != 8 || off % 8 == 0)

def XY.ok (p : XY) : Bool := decide (p.x < 1200 ∧ p.y < 768)

def RegTarget.ok : RegTarget → Bool
  | .bar0 off => decide (off < 67108864)
  | .config off => decide (off < 4096)
  | .plot phys off => physOk phys && decide (off < 4096)
  | .field f off => fieldOk f && decide (off < 4096)
  | .emc c off => stackOk c && decide (off < 4096)
  | .port p off => portOk p && decide (off < 4096)
  | .switch off => decide (off < 4096)

/-- Sizes of a write: 1 to 256 bytes into the ledger, 4 or 8 aligned bytes anywhere else (15 R491). -/
def RegTarget.sizeOk (t : RegTarget) (n : Nat) : Bool :=
  match t with
  | .bar0 off => (decide (1 ≤ n ∧ n ≤ 256 ∧ off + n ≤ 0x100000)) || (Sys2Proof.sizeOk n && off % n == 0)
  | .config off | .plot _ off | .field _ off | .emc _ off | .port _ off | .switch off => Sys2Proof.sizeOk n && off % n == 0

def SwitchIn.ok : SwitchIn → Bool
  | .port p => portOk p
  | .stratus _ => true

def Attach.ok : Attach → Bool
  | .emc c => stackOk c
  | .port p => portOk p

def Segment.ok : Segment → Bool
  | .clock f => fieldOk f
  | .memory c => stackOk c
  | .link p => portOk p

def SquallCause.ok : SquallCause → Bool
  | .junction f => fieldOk f
  | .stack c => stackOk c
  | .mainInput => true
  | .coolant => true
  | .cap => true

def PlotTest.ok (t : PlotTest) : Bool := physOk t.phys
def JoinResult.ok (r : JoinResult) : Bool := decide (r.join < 130)
def StackTraining.ok (t : StackTraining) : Bool := stackOk t.stack
def Upset.ok (u : Upset) : Bool := u.addr % 8 == 0

/-- A well-formed command. -/
def Instr.wf : Instr → Bool
  | .ringSetup => true
  | .load _ => true
  | .run => true
  | .release => true
  | .drain => true
  | .reopen => true
  | .restore => true
  | .swap _ => true
  | .swapCancel => true
  | .reproject => true
  | .faultArea => true
  | .epochClose => true
  | .test results => (results.getD []).all PlotTest.ok
  | .calibrate => true
  | .readCtrl => true
  | .writeCtrl => true
  | .fixClocks => true
  | .unfixClocks => true
  | .fwStage _ => true
  | .fwActivate => true
  | .surveyRecover => true
  | .attest => true
  | .debugSetLevel => true
  | .debugPresentToken _ => true
  | .debugRelock => true
  | .edgeExport => true
  | .edgeImport _ => true
  | .echo => true
  | .ledgerTake => true
  | .backlogRetry _ => true
  | .hostRead _ => true
  | .perstN => true
  | .hotReset => true
  | .functionLevelReset => true
  | .pcieLinkDown => true
  | .badAccess _ _ _ => true
  | .registerWrite target data => target.ok && target.sizeOk data.length
  | .pagedRead page off size _ => pageOk page && pageSpanOk off size
  | .pagedWrite page off data _ => pageOk page && pageSpanOk off data.length
  | .cwinSelWrite n _ => pageOk n
  | .memWindowRead phys off size => physOk phys && spanOk 64 off size
  | .memWindowWrite phys off size _ => physOk phys && spanOk 64 off size
  | .accDataWrite phys off size _ => physOk phys && spanOk 16 off size
  | .haltReq phys _ => physOk phys
  | .step phys => physOk phys
  | .fenceSet phys => physOk phys
  | .fenceClear phys => physOk phys
  | .placeDeviceIdWrite _ => true
  | .torusWrite _ => true
  | .portRoleWrite _ => true
  | .pwrBudgetWrite _ => true
  | .wgRetrainWrite port => portOk port
  | .wgDisableWrite port _ => portOk port
  | .emcRetireWrite stack => stackOk stack
  | .wgLostSrcRead port => portOk port
  | .fieldFirstRead field => fieldOk field
  | .soundingIdentityRead => true
  | .soundingPowerRead _ => true
  | .soundingTemperatureRead => true
  | .soundingResetClockRead _ => true
  | .soundingStageRead _ => true
  | .squallRequest _ => true
  | .squallWithdraw _ => true
  | .soundingBudgetRead => true
  | .soundingBudgetWrite _ _ => true
  | .alertSrcRead => true
  | .alertResponseAddress => true
  | .jtagBypass _ => true
  | .jtagIdcode => true
  | .jtagSamplePreload _ _ => true
  | .jtagExtest _ => true
  | .debugPortRead _ _ _ => true
  | .debugPortHalt _ => true
  | .debugPortStep _ => true
  | .debugPortWrite _ _ _ _ => true
  | .noOperation p => p.ok
  | .endFiring p => p.ok
  | .switchRequest p => p.ok
  | .tensorMac p => p.ok
  | .tensorClearMac p => p.ok
  | .tensorAddWords p => p.ok
  | .clearTile p => p.ok
  | .vectorAdd p => p.ok
  | .vectorSubtract p => p.ok
  | .vectorMultiply p => p.ok
  | .vectorFma p => p.ok
  | .vectorMin p => p.ok
  | .vectorMax p => p.ok
  | .vectorCompare p => p.ok
  | .vectorSelect p => p.ok
  | .vectorAbsoluteValue p => p.ok
  | .vectorNegate p => p.ok
  | .vectorConvert p => p.ok
  | .exp2 p => p.ok
  | .log2 p => p.ok
  | .reciprocal p => p.ok
  | .rsqrt p => p.ok
  | .sinOfPhase p => p.ok
  | .cosOfPhase p => p.ok
  | .move p => p.ok
  | .edgeRead p => p.ok
  | .edgeWrite p => p.ok
  | .send p => p.ok
  | .sendTile p => p.ok
  | .ringRelease p => p.ok
  | .finish p => p.ok
  | .beaconAdd p => p.ok
  | .beaconWait p => p.ok
  | .beaconSet p => p.ok
  | .beaconWaitSatisfied p => p.ok
  | .contourArrive p => p.ok
  | .contourWait p => p.ok
  | .contourArriveAndWait p => p.ok
  | .commitOpen p => p.ok
  | .commit p => p.ok
  | .commitAbort p => p.ok
  | .joinParcelCommit p => p.ok
  | .joinDecision p => p.ok
  | .joinConfirm p => p.ok
  | .sequencerMismatch p => p.ok
  | .operationComplete p _ => p.ok
  | .operandPopResume p _ => p.ok
  | .creditWaitResume p _ => p.ok
  | .firingBegin p => p.ok
  | .firingComplete p => p.ok
  | .sheetSwitch p => p.ok
  | .sheetSwitchDone p => p.ok
  | .outerIterationBegin p => p.ok
  | .outerIterationComplete p => p.ok
  | .steeringSwitch p rule => p.ok && ruleOk rule
  | .steeringMerge p rule => p.ok && ruleOk rule
  | .generationPeriodFlush p => p.ok
  | .queueMessageArrival _ => true
  | .ringMessageStart _ => true
  | .ringMessageLand p ring => p.ok && ringOk ring
  | .creditGrantArrival _ => true
  | .closeNoticeArrival _ => true
  | .dropNoticeArrival _ => true
  | .imageWriteArrival _ => true
  | .chartroomPlotWrite p _ _ _ => p.ok
  | .controllerAskArrival _ => true
  | .ticketGrantArrival _ => true
  | .edgeRequestArrival _ => true
  | .edgeServiceComplete stack => stackOk stack
  | .edgeCompletionArrival _ => true
  | .ticketGiveBack p stack => p.ok && stackOk stack
  | .giveBackArrival _ => true
  | .shareBucketRefill => true
  | .stackTemperatureRead stack _ => stackOk stack
  | .calibrationWindow stack => stackOk stack
  | .padScrub phys _ upsets => physOk phys && upsets.all Upset.ok
  | .edgeScrub stack _ upsets => stackOk stack && upsets.all Upset.ok
  | .progressMark a => a.p.ok
  | .stallExpiry a => a.p.ok
  | .parcelDeadlock parcel => parcelOk parcel
  | .quiescenceReport a => parcelOk a.parcel
  | .scanComplete parcel => parcelOk parcel
  | .drainTimeout p => p.ok
  | .timeoutSettle parcel => parcelOk parcel
  | .endReport parcel => parcelOk parcel
  | .imagesDone parcel => parcelOk parcel
  | .swapTake parcel => parcelOk parcel
  | .tallyArrival _ _ => true
  | .tallyReturnArrival _ => true
  | .leafReturn _ => true
  | .lossNoticeArrival tree => treeOk tree
  | .ownerRouteTimeout tree => treeOk tree
  | .treeLossBroadcast field => fieldOk field
  | .faultDrainOrder parcel => parcelOk parcel
  | .rerun a => physOk a.phys
  | .rerunVerdict phys _ => physOk phys
  | .patrolTest a => physOk a.phys && a.result.all PlotTest.ok
  | .queuedTestRun a => physOk a.phys && a.result.all PlotTest.ok
  | .fieldSupplyFault field => fieldOk field
  | .routeRewrite => true
  | .attachmentSwitch what => what.ok
  | .processorWatchdogExpiry _ => true
  | .hardwareRestart _ => true
  | .processorRestartComplete _ => true
  | .transactionResume => true
  | .isobarSlot _ _ _ _ => true
  | .hintReport field => fieldOk field
  | .junctionRead _ => true
  | .capSample _ => true
  | .capStep => true
  | .squall cause => cause.ok
  | .squallEnd => true
  | .thermalTrip => true
  | .coolantChange _ _ _ => true
  | .coolantLost => true
  | .droopStretch field => fieldOk field
  | .ageingMeasure _ => true
  | .nvBlock _ => true
  | .nvUnblock => true
  | .mainInputLoss => true
  | .mainOverVoltage => true
  | .standbyInputLoss => true
  | .idleEntry => true
  | .idleExit => true
  | .powerOnReset => true
  | .resetPulse _ => true
  | .resetHold _ => true
  | .releaseStep => true
  | .domainSupplyTimeout field => fieldOk field
  | .imageVerify _ _ => true
  | .chartroomStart _ _ _ _ => true
  | .referenceSelection _ _ _ _ _ => true
  | .stitchWireTest results => results.all JoinResult.ok
  | .triangulation results => results.all PlotTest.ok
  | .gazetteerBuild => true
  | .edgeMemoryTraining results => results.all StackTraining.ok
  | .wengaLinkTraining => true
  | .ready => true
  | .supervisionWindow _ _ _ => true
  | .clkLost => true
  | .refclkBFail => true
  | .signalDetect port _ => portOk port
  | .equaliseDone port _ => portOk port
  | .laneMapDone port _ => portOk port
  | .identifyExchange port _ => portOk port
  | .retrainEntry port _ => portOk port
  | .retrainDone port _ => portOk port
  | .portDown port => portOk port
  | .downTimer port => portOk port
  | .flitReceive port _ => portOk port
  | .nakReceive port _ => portOk port
  | .flitKeepalive port => portOk port
  | .wengaPacketArrival source => source.ok
  | .roleHoldExpiry _ => true
  | .streamData port => portOk port
  | .streamCredit port => portOk port
  | .imageData port => portOk port
  | .linkCredit port => portOk port
  | .stitchModeEntry field => fieldOk field
  | .stitchModeExit field => fieldOk field
  | .segmentSupplyFault segment => segment.ok
  | .standbyBranchFault _ => true

end Sys2Proof
end

