-- ==== Sys2Proof/Machine/Arrivals.lean ====
section
/-! DEFINITION. Packets that arrive at plots and controllers, and edge memory (spec/06 R217-R241, R558, spec/07 R250, R251, spec/08 R290-R294,
spec/09 R315, R326-R339, spec/10 R352, R359). What an arrival does inside a plot stands in PlotArrive.lean. -/

namespace Sys2Proof.Machine

/-- Take packet n for one kind of arrival: none when it is not of that kind or may not come yet; a packet that a fence stops is discarded
and counted (R286, R294); what links did to its flits counts, and its data carries the poison (R296). -/
def State.arrive (s : State) (n : Nat) (err : NetErr) (pick : Packet → Bool) : State × Option Packet :=
  match s.stratus[n]? with
  | none => (s, none)
  | some e =>
    if !pick e.pkt then (s, none)
    else match s.takePacket n with
      | none => (s, none)
      | some (e, s) =>
        match s.fenceHit e.way with
        | some f => (s.discard f, none)
        | none => (s.linkErrors (s.placeField e.pkt.dst) err, some { e.pkt with body := e.pkt.body.mar err.poison })

/-- A packet for a plot: discarded and counted when the plot is fenced, void or dead (R293). -/
def State.toPlot (s : State) (x y : Nat) (f : Run → Run × Bool) : State :=
  if (s.runAt x y).isNone then s.discard (fieldOf x y) else s.onPlotCount x y f

/-! ## Channels and readers -/

/-- 06 R226, R236, R238, R558. -/
def execQueueMessageArrival (a : Inbound) (s : State) : Host.Outcome State Fault Refusal :=
  match s.arrive a.n a.err fun k => match k.body, k.dst with
    | .msg m, .plot _ _ => !m.ring
    | _, _ => false with
  | (s, some ⟨_, .plot x y, _, .msg m⟩) => .next (s.toPlot x y fun r => r.queueArrive m)
  | (s, _) => .next s

/-- No message is part-way through landing in ring k of the plot at (x, y): a writer's messages arrive one after another (08 R282). -/
def State.ringReady (s : State) (x y k : Nat) : Bool :=
  match s.runAt x y with
  | some r => (r.p.ring k).landing.isNone
  | none => true

/-- 06 R230, R233, R558. -/
def execRingMessageStart (a : Inbound) (s : State) : Host.Outcome State Fault Refusal :=
  match s.arrive a.n a.err fun k => match k.body, k.dst with
    | .msg m, .plot x y => m.ring && s.ringReady x y m.index
    | _, _ => false with
  | (s, some ⟨_, .plot x y, _, .msg m⟩) => .next (s.toPlot x y fun r => r.ringStart m)
  | (s, _) => .next s

/-- 06 R233, R250. -/
def execRingMessageLand (p : XY) (ring : Nat) (s : State) : Host.Outcome State Fault Refusal :=
  .next (s.onPlot p fun r => r.ringLand ring)

/-- The channel of a notice at its plot. -/
def Writer.chanOf : Writer → Nat
  | .channel _ _ _ c _ => c
  | .stream _ s => s

/-- Credit that a reader returns to a port stream (11 R398, R399): the port owes it to the gateway. -/
def State.oweStream (s : State) (port stream n : Nat) : State :=
  let v := s.port port
  (s.setPort port { v with streamOwed := oweAdd v.streamOwed stream n }).pump port

/-- 06 R217-R220, 11 R398. -/
def execCreditGrantArrival (a : Inbound) (s : State) : Host.Outcome State Fault Refusal :=
  match s.arrive a.n a.err fun k => match k.body, k.dst with
    | .grant _ _, .plot _ _ => true
    | .grant _ _, .port _ => true
    | _, _ => false with
  | (s, some ⟨_, .plot x y, _, .grant w amount⟩) =>
    .next (s.toPlot x y fun r => ({ r with p := r.p.grantArrive w.chanOf amount }, false))
  | (s, some ⟨_, .port p, _, .grant w amount⟩) => .next (s.oweStream p w.chanOf amount)
  | (s, _) => .next s

/-- 06 R237. A notice to a port stream ends at the port (log entry 25). -/
def execCloseNoticeArrival (a : Inbound) (s : State) : Host.Outcome State Fault Refusal :=
  match s.arrive a.n a.err fun k => match k.body, k.dst with
    | .close _, .plot _ _ => true
    | .close _, .port _ => true
    | _, _ => false with
  | (s, some ⟨_, .plot x y, _, .close w⟩) => .next (s.toPlot x y fun r => ({ r with p := r.p.closeArrive w.chanOf }, false))
  | (s, _) => .next s

/-- 06 R237. -/
def execDropNoticeArrival (a : Inbound) (s : State) : Host.Outcome State Fault Refusal :=
  match s.arrive a.n a.err fun k => match k.body, k.dst with
    | .drop _, .plot _ _ => true
    | .drop _, .port _ => true
    | _, _ => false with
  | (s, some ⟨_, .plot x y, _, .drop w⟩) => .next (s.toPlot x y fun r => ({ r with p := r.p.dropArrive w.chanOf }, false))
  | (s, _) => .next s

/-! ## Writes into plot memory -/

/-- Whether a plot accepts an image write (10 R359). -/
def Plot.takesImage (p : Plot) (parcel : Nat) (swap : Option Parcel) (off n : Nat) : Bool :=
  p.parcel == parcel && parcel != 0 &&
    ((p.st == .loaded && !p.gate) ||
      (p.swapStaged && (match swap with
        | some q => decide (q.swapBase ≤ off ∧ off + n ≤ q.swapBase + q.swapLen)
        | none => false)))

/-- 10 R359. -/
def execImageWriteArrival (a : Inbound) (s : State) : Host.Outcome State Fault Refusal :=
  match s.arrive a.n a.err fun k => match k.body with
    | .image _ _ _ _ _ => true
    | _ => false with
  | (s, some ⟨_, _, _, .image parcel x y off data⟩) =>
    let swap := s.parcel parcel
    .next (s.toPlot x y fun r =>
      if r.p.takesImage parcel swap off data.length then ({ r with p := r.p.memWrite off data }, false) else (r, true))
  | (s, _) => .next s

/-- 07 R250, R251: the Chartroom's write on VC0, its signal after its data; a Stratus message, which a plot that does not work never gets, nor one in
a field with all four sides fenced (08 R293, R294; log entry 82). The links' errors count, and its flits meet the plot's crossing (R296, R308). -/
def execChartroomPlotWrite (p : XY) (off : Nat) (data : Payload) (signal : Option Signal) (s : State) : Host.Outcome State Fault Refusal :=
  if (s.field (fieldOf p.x p.y)).side = 0xF then .next (s.discard (fieldOf p.x p.y))
  else
    let s := s.linkErrors (fieldOf p.x p.y) data.err
    match s.crossWrite p (Data.mar data.data data.err.poison) with
    | (s, none) => .next s
    | (s, some d) => .next (s.toPlot p.x p.y fun r =>
      (if 0x32000 < off + d.length then r else { r with p := (r.p.memWrite off d).applySignal signal }, false))

/-! ## Controllers (09 R329-R332) -/

/-- The plots of a list in one field, rising. -/
def inField (l : List Nat) (f : Nat) : List Nat := l.filter fun ph => fieldOfPhys ph == f

/-- Round robin by field and, within a field, by plot (R291, R331): the next of the plots in a list. -/
def Robin.next (r : Robin) (l : List Nat) : Option (Nat × Robin) :=
  let order := (List.range 48).map fun i => (r.field + 1 + i) % 48
  match order.find? fun f => !(inField l f).isEmpty with
  | none => none
  | some f =>
    let here := inField l f
    let last := listGet r.last f
    let after := match last with
      | some a => here.filter fun ph => decide (a < ph)
      | none => here
    match (if after.isEmpty then here else after) with
    | [] => none
    | a :: rest =>
      let ph := rest.foldl min a
      some (ph, { field := f, last := listPut f ph r.last })

/-- One grant: the next asking plot gets a ticket (R331). -/
def State.grantOne (s : State) (c : Nat) : Option State :=
  let e := s.emc c
  if 2730 ≤ e.holders.length then none
  else
    let go (e : Emc) (ph : Nat) : State :=
      let s := s.setEmc c { e with holders := e.holders ++ [ph] }
      match logicalOf s.nv.survey.proj ph with
      | some q => s.putPacket ⟨.emc c, .plot q.x q.y, 3, .ticket c⟩
      | none => s
    match e.askAt.next e.asks with
    | some (ph, r) => some (go { e with askAt := r, asks := e.asks.erase ph } ph)
    | none => match e.shaskAt.next e.shasks with
      | some (ph, r) => some (go { e with shaskAt := r, shasks := e.shasks.erase ph } ph)
      | none => none

def State.grantGo (s : State) (c : Nat) : Nat → State
  | 0 => s
  | n + 1 => match s.grantOne c with
    | none => s
    | some s => s.grantGo c n

/-- Grant while an entry is free and a plot asks. -/
def State.grantTickets (s : State) (c : Nat) : State := s.grantGo c ((s.emc c).asks.length + (s.emc c).shasks.length)

/-- 09 R331. -/
def execControllerAskArrival (a : Inbound) (s : State) : Host.Outcome State Fault Refusal :=
  match s.arrive a.n a.err fun k => match k.body with
    | .ask _ _ _ => true
    | _ => false with
  | (s, some ⟨_, _, _, .ask ph c reserved⟩) =>
    if !s.clk.mem.up then .next (s.discard (s.placeField (.emc c))) else
    let e := s.emc c
    let e := if reserved then { e with asks := insertNat ph e.asks } else { e with shasks := insertNat ph e.shasks }
    .next ((s.setEmc c e).grantTickets c)
  | (s, _) => .next s

/-- 09 R330, R332. -/
def execTicketGrantArrival (a : Inbound) (s : State) : Host.Outcome State Fault Refusal :=
  match s.arrive a.n a.err fun k => match k.body with
    | .ticket _ => true
    | _ => false with
  | (s, some ⟨_, .plot x y, _, .ticket c⟩) => .next (s.toPlot x y fun r => (r.ticketArrive c, false))
  | (s, _) => .next s

/-- 09 R327, R329: a request enters its entry; a controller without supply takes nothing (01 R36, 12 R410). -/
def execEdgeRequestArrival (a : Inbound) (s : State) : Host.Outcome State Fault Refusal :=
  match s.arrive a.n a.err fun k => match k.body with
    | .request _ _ => true
    | _ => false with
  | (s, some ⟨_, _, _, .request c q⟩) =>
    if !s.clk.mem.up then .next (s.discard (s.placeField (.emc c)))
    else .next (s.setEmc c { s.emc c with pool := (s.emc c).pool ++ [q] })
  | (s, _) => .next s

/-- Two requests of which one writes a line that the other touches (R327). -/
def EdgeReq.conflicts (a b : EdgeReq) : Bool :=
  (a.write || b.write) && decide (a.addr < b.addr + b.len ∧ b.addr < a.addr + a.len)

/-- Requests that no earlier conflicting one is before. -/
def freeRequests : List EdgeReq → List EdgeReq → List EdgeReq
  | _, [] => []
  | before, q :: rest => if before.any q.conflicts then freeRequests (before ++ [q]) rest else q :: freeRequests (before ++ [q]) rest

/-- The request a controller serves next (R291): reserved ones first, shared ones round robin. -/
def Emc.pick (e : Emc) : Option (EdgeReq × Robin) :=
  let l := freeRequests [] e.pool
  match l.find? fun q => q.reserved with
  | some q => some (q, e.serveAt)
  | none =>
    match e.serveAt.next (l.map (·.phys)) with
    | none => none
    | some (ph, r) => (l.find? fun q => q.phys == ph).map fun q => (q, r)

/-- Read edge memory, counting at a controller (R313); a retired stack answers zeros with poison (R339). -/
def State.edgeReadAt (s : State) (c addr n : Nat) : State × Data :=
  if (s.emc c).retired then (s, List.replicate n ((0 : Byte), true))
  else
    let r := s.edge.read addr n
    let s := { s with edge := r.mem }
    ((s.countEmc c 0 r.corrected).countEmc c 1 r.uncorrectable, r.data)

/-- Write edge memory; a retired stack stores nothing. -/
def State.edgeWriteAt (s : State) (c addr : Nat) (d : Data) : State :=
  if (s.emc c).retired then s
  else
    let r := s.edge.write addr d
    let s := { s with edge := r.mem }
    (s.countEmc c 0 r.corrected).countEmc c 1 r.uncorrectable

/-- A controller works: its domain is released and supplied, and no calibration window is open (R338, 12 R411). A stack whose segment is lost is a
retired one, whose controller goes on (R339). -/
def State.emcServes (s : State) (c : Nat) : Bool := (s.emc c).window == 0 && !(s.emc c).selfRefresh && s.clk.mem.up

/-- A controller carries out an accepted request and sends its completion (R327, R331, R332, R339). -/
def State.serve (s : State) (stack : Nat) (q : EdgeReq) (robin : Robin) : State :=
  let e := s.emc stack
  let s := s.setEmc stack { e with pool := e.pool.erase q, serveAt := robin, selfRefresh := false }
  let (s, q') := if q.write then (s.edgeWriteAt stack q.addr q.data, { q with data := [] })
    else
      let (s, d) := s.edgeReadAt stack q.addr q.len
      (s, { q with data := d })
  let s := s.countEmc stack (if q.write then 3 else 2) 1
  let e := s.emc stack
  let keep := e.asks.isEmpty && e.shasks.isEmpty
  let s := if keep then s else s.setEmc stack { e with holders := e.holders.erase q.phys }
  let s := s.putPacket ⟨.emc stack, .plot q.x q.y, 0, .completion stack q' keep⟩
  s.grantTickets stack

/-- 09 R327, R331, R332, R339. -/
def execEdgeServiceComplete (stack : Nat) (s : State) : Host.Outcome State Fault Refusal :=
  if !s.emcServes stack then .next s
  else match (s.emc stack).pick with
    | none => .next s
    | some (q, robin) => .next (s.serve stack q robin)

/-- The accepted requests that have to come before a later access, in order of acceptance: those that conflict with it, and those that conflict with
one of these after them (R327). -/
def requestsBefore (q : EdgeReq) (pool : List EdgeReq) : List EdgeReq :=
  pool.foldr (fun e l => if (q :: l).any e.conflicts then e :: l else l) []

/-- An access of the Cirrus root finds what the requests accepted before it have written, and leaves what they are to read (R327). -/
def State.settleRoot (s : State) (c addr len : Nat) (write : Bool) : State :=
  let q : EdgeReq := { phys := 0, x := 0, y := 0, tracker := 0, write := write, addr := addr, len := len, locals := [], data := [], reserved := true }
  (requestsBefore q (s.emc c).pool).foldl (fun (s : State) e => s.serve c e (s.emc c).serveAt) s

/-- 09 R326, R328, R332. -/
def execEdgeCompletionArrival (a : Inbound) (s : State) : Host.Outcome State Fault Refusal :=
  match s.arrive a.n a.err fun k => match k.body with
    | .completion _ _ _ => true
    | _ => false with
  | (s, some ⟨_, .plot x y, _, .completion c q keep⟩) => .next (s.toPlot x y fun r => r.edgeComplete c q keep)
  | (s, _) => .next s

/-- 09 R332: a ticket unused for 4,096 network cycles goes back. -/
def execTicketGiveBack (p : XY) (stack : Nat) (s : State) : Host.Outcome State Fault Refusal :=
  .next (s.onPlot p fun r =>
    let e := r.p.edge
    let busy := (r.p.ticketWaiter stack).isSome || !(r.p.st == .running || r.p.st == .draining)
    if busy ∨ (e.tickets[stack]?).getD 0 = 0 then r
    else ({ r with p := { r.p with edge := { e with tickets := e.tickets.modify stack (· - 1) } } }).send
      ⟨r.here, .emc stack, 2, .giveBack r.phys stack⟩)

/-- 09 R331, R332. -/
def execGiveBackArrival (a : Inbound) (s : State) : Host.Outcome State Fault Refusal :=
  match s.arrive a.n a.err fun k => match k.body with
    | .giveBack _ _ => true
    | _ => false with
  | (s, some ⟨_, _, _, .giveBack ph c⟩) =>
    if !s.clk.mem.up then .next (s.discard (s.placeField (.emc c))) else
    let e := s.emc c
    .next ((s.setEmc c { e with holders := e.holders.erase ph }).grantTickets c)
  | (s, _) => .next s

/-- Change every plot that differs from one after reset, the others staying as they are under the change. -/
def State.mapPlots (s : State) (f : Plot → Plot) : State :=
  { s with plots := (s.plots.map fun pp => (pp.1, f pp.2)).filter fun pp => pp.2 != Plot.reset }

/-- 08 R290, R292: every bucket gains 64 bytes, up to 512. -/
def execShareBucketRefill (s : State) : Host.Outcome State Fault Refusal :=
  .next (s.mapPlots fun p => { p with edge := { p.edge with buckets := p.edge.buckets.map fun b => min 512 (b + 64) } })

/-! ## Scrub (09 R315) -/

/-- Flip stored bits. -/
def Mem.disturb (m : Mem) (us : List Upset) : Mem := us.foldl (fun m u => m.upset (u.addr / 8) u.data u.check) m

/-- 09 R313, R315: a bank of a plot reads and checks a line in turn. -/
def execPadScrub (phys line : Nat) (upsets : List Upset) (s : State) : Host.Outcome State Fault Refusal :=
  if !physOk phys || !s.powered (fieldOfPhys phys) || decide (3328 ≤ line) then .next s
  else
    let p := s.plot phys
    let p1 := { p with mem := p.mem.disturb (upsets.filter fun u => decide (u.addr < 0x34000)) }
    .next (s.putPlot phys p (p1.memRead (64 * line) 64).1)

/-- 09 R313, R315: a controller reads and checks a line of its stack. -/
def execEdgeScrub (stack addr : Nat) (upsets : List Upset) (s : State) : Host.Outcome State Fault Refusal :=
  let s := { s with edge := s.edge.disturb (upsets.filter fun u => edgePresent u.addr && (edgePlace u.addr).1 == stack) }
  let a := addr / 64 * 64
  if !(s.emc stack).scrubEn || !s.emcServes stack || !edgePresent a || (edgePlace a).1 != stack then .next s
  else .next (s.edgeReadAt stack a 64).1

end Sys2Proof.Machine
end

