-- ==== Sys2Proof/Machine/Operands.lean ====
section
/-! DEFINITION. The operands of host commands: the fields of a command's body words and which of their bits are reserved (spec/15 R492,
R497, spec/16 R523, R526), and whose turn a command is. -/

namespace Sys2Proof.Machine

/-- Body word Wi. -/
def Cmd.w (c : Cmd) (i : Nat) : Nat := ((c.body[i]?).getD 0).toNat

/-- Bits hi..lo of body word Wi. -/
def Cmd.bits (c : Cmd) (i hi lo : Nat) : Nat := bitsOf (c.w i) hi lo

def Cmd.flag (c : Cmd) (i b : Nat) : Bool := (c.w i).testBit b

/-- A rectangle in word 0 (R345): two 32-bit words. -/
def rectOf (v : Nat) : Rect := { x0 := bitsOf v 10 0, y0 := bitsOf v 20 11, x1 := bitsOf v 42 32, y1 := bitsOf v 52 43 }

/-- Zero bits and ordered ends on the grid (R345). -/
def rectOk (v : Nat) : Bool :=
  let r := rectOf v
  bitsOf v 31 21 == 0 && bitsOf v 63 53 == 0 && decide (r.x0 ≤ r.x1 ∧ r.x1 ≤ 1199 ∧ r.y0 ≤ r.y1 ∧ r.y1 ≤ 767)

/-- The bits that each opcode's body words hold, word by word; every other bit is reserved (R497). -/
def bodyMask (op sub : Nat) : Option (List Nat) :=
  let all : Nat := 2 ^ 64 - 1
  match op with
  | 0x01 => some [all, 0x3F1F, all, 0x1FF]
  | 0x02 => some [all, 2 ^ 44 - 1 + 2 ^ 48 + 2 ^ 49 + 2 ^ 50]
  | 0x03 => some [0xFF]
  | 0x04 => some [0x3FF]
  | 0x05 => some [0x3FF, all]
  | 0x06 => some [0xFF]
  | 0x07 => some [0xFF, all]
  | 0x08 => some [0x1FF, all, 2 ^ 44 - 1]
  | 0x09 => some [0xFF]
  | 0x0A => some [all]
  | 0x0B => some [0xFF, all, all]
  | 0x0C => some []
  | 0x0D => some [all, 1]
  | 0x0E => some [0x3F]
  | 0x0F => some [2 ^ 35 - 1 - 0xFC]
  | 0x10 => some [2 ^ 35 - 1 - 0xFC, all, all, all, all]
  | 0x11 => some [2 ^ 48 - 1, 0x3F]
  | 0x12 => some [2 ^ 48 - 1]
  | 0x13 => some [all, 2 ^ 32 - 1]
  | 0x14 => some [all]
  | 0x15 => some []
  | 0x16 => some [all, all, all, all]
  | 0x17 => if sub < 3 then some [0xF, all] else none
  | 0x18 => some [all, all, 0xF + 0xFFF * 2 ^ 16]
  | 0x19 => some [all, all, 0xF + 0xFFF * 2 ^ 16]
  | 0x1A => some (List.replicate 30 all)
  | _ => none

/-- Whether a body has a bit set outside a mask; words beyond the mask are reserved whole. -/
def bodyStray : List W64 → List Nat → Bool
  | [], _ => false
  | w :: ws, m :: ms => w.toNat &&& m != w.toNat || bodyStray ws ms
  | w :: ws, [] => w != 0 || bodyStray ws []

/-- The stream a command is carried out in: parcel commands together, then each processor's own others (R497). -/
def opStream (op : Nat) : Nat := if 2 ≤ op ∧ op ≤ 0x0B then 0 else 1 + procIndex (procOfOp op)

/-- A parcel command is being carried out: a drain that a command ordered has not reported. -/
def State.drainBusy (s : State) : Bool := s.parcels.any fun p => match p.drain with | some d => d.cmd.isSome | none => false

/-- The command in turn of an opcode, taken off the list: the first of its stream (R497), its processor at work (R507). -/
def State.turn (s : State) (op : Nat) : Option (Cmd × State) :=
  let st := opStream op
  match s.hif.taken.find? fun c => opStream c.op == st with
  | none => none
  | some c =>
    if c.op ≠ op ∨ s.serves (procOfOp op) = false ∨ (st = 0 ∧ (s.serves .alidade = false ∨ s.drainBusy = true)) then none
    else some (c, { s with hif := { s.hif with taken := s.hif.taken.erase c } })

end Sys2Proof.Machine
end

