-- ==== Sys2Proof/Machine/Drains.lean ====
section
/-! DEFINITION. The progress watchdog, draining, the scan of context records, the end of a parcel, and the gates (spec/05 R198-R214, spec/07
R276, spec/10 R364-R366, spec/13 R438-R443, spec/15 R501, R502). -/

namespace Sys2Proof.Machine

/-! ## Progress (05 R198-R201) -/

/-- 05 R198, 08 R304: a plot of a running parcel that has made progress sends its mark, whatever its own state; the root passes it to every plot of the
parcel. A deadlock that the root has decided stands. -/
def execProgressMark (a : PlotReport) (s : State) : Host.Outcome State Fault Refusal :=
  match s.parcelAt a.p.x a.p.y with
  | none => .next s
  | some q =>
    let ph := s.phys a.p.x a.p.y
    let v := s.plot ph
    if q.phase != .running || !s.alive ph || !v.watch.moved then .next s
    else
      let s := s.setPlot ph { v with watch := { v.watch with moved := false } }
      match s.reportUp q a.p 3 0 a.parityOk with
      | (s, true) => .next (s.mapParcel q fun v => { v with watch := { v.watch with count := 0, expired := false } })
      | (s, false) => .next s

/-- A plot holds work (R199): an entry in a queue, a message in a ring, or an operation or steering rule that waits on credit. -/
def Plot.holdsWork (p : Plot) : Bool :=
  let h := sheetHeader p.seq.cache p.seq.cur
  (p.queues.any fun q => !q.entries.isEmpty) || (p.rings.any fun g => g.msgs != 0)
    || (p.seq.ops.any fun f => match f.wait with | .credit _ => true | _ => false)
    || (p.st == .running && ((p.steerState h.steer0).2.isSome || (p.steerState h.steer1).2.isSome))

/-- 05 R199, 08 R304: a plot's report of expiry reaches the root: a deadlock falls due when some plot holds work, else every count restarts. -/
def execStallExpiry (a : PlotReport) (s : State) : Host.Outcome State Fault Refusal :=
  match s.parcelAt a.p.x a.p.y with
  | none => .next s
  | some q =>
    let ph := s.phys a.p.x a.p.y
    if !s.watchArmed q || !s.alive ph then .next s
    else match s.reportUp q a.p 5 0 a.parityOk with
    | (s, false) => .next s
    | (s, true) =>
    if (s.parcelPlots q).any fun qp => qp.2.holdsWork then
      let v := s.plot ph
      .next ((s.setParcel { q with expired := true }).setPlot ph { v with watch := { v.watch with expired := true } })
    else .next (s.mapParcel q fun v => { v with watch := { v.watch with count := 0, expired := false } })

/-! ## The drain order (05 R202, R203) -/

/-- A plot stops issue and steering (R201, R207, 07 R276): an open group that has not voted aborts, a join that has voted goes on, and what waits is
abandoned, in a faulted plot too. In a plot that is not faulted the firings, a switch in progress and an open generation period end with it (log
entry 22). -/
def Run.stopWork (r : Run) : Run :=
  let g : Group := r.p.group
  let r := if (g.state = 1 ∧ g.voted = false) ∨ (g.state = 2 ∧ g.step = 0) then r.abortGroup gDrainAbort 5 true else r
  let ops := r.p.seq.ops.filter fun f => !(f.work && f.wait != .join && f.wait != .none)
  let seq := { r.p.seq with ops := ops }
  let seq := if r.p.st = .faulted then seq else { seq with firings := [], target := none, switching := none, gen := none }
  { r with p := { r.p with seq := seq, watch := { r.p.watch with partialRec := true } } }

/-- Close the gates and put every RUNNING plot in DRAINING (R203 step 1); a drain order lets halted plots go first (16 R528). -/
def Plot.enterDrain (p : Plot) : Plot :=
  let p := { p with gate := false, watch := { p.watch with drain := 0 }, haltReq := false, seq := { p.seq with halted := false } }
  let p := if p.st == .running then { p with st := .draining } else p
  { p with watch := { p.watch with quiet := p.quiescentNow } }

/-- A plot goes to QUIESCENT at the end of its drain (R203 step 4); a join that nothing completes any more is given up, in a faulted plot
too (07 R276, R277). -/
def Run.endDrain (r : Run) : Run :=
  let r := r.giveUpJoin
  if r.p.st = .draining ∨ r.p.st = .loaded ∨ r.p.st = .running then ({ r with p := { r.p with st := .quiescent } }).leaveRunning else r

/-- The group of a plot that no longer works ends at a stop and at the end of a drain, with nothing sent: every record then holds STATE NONE (07
R276). -/
def Plot.closeDead (p : Plot) : Plot :=
  if p.group.state = 0 then p
  else if p.group.voted then p.leaveGroup 3
  else { p with group := p.group.flag gDrainAbort }.leaveGroup 5

/-- A stop at a plot that no longer works: its record carries PARTIAL too (05 R207). -/
def Plot.stopDead (p : Plot) : Plot := { p.closeDead with watch := { p.watch with partialRec := true } }

/-- Every plot of a parcel stops, and every plot of it ends its drain. -/
def State.stopPlots (s : State) (q : Parcel) : State := (s.onParcel q Run.stopWork).onDead q Plot.stopDead
def State.endPlots (s : State) (q : Parcel) : State := (s.onParcel q Run.endDrain).onDead q Plot.closeDead

/-- A parcel commit has still something to carry out (07 R275, R276): a tally of the parcel's trees is under way, or a plot has a result to act on. -/
def State.joinGoesOn (s : State) (q : Parcel) : Bool :=
  (s.nimbus.any fun t => (q.trees ++ q.spans).contains t.tree)
    || (s.parcelPlots q).any fun qp => s.alive (s.phys qp.1.x qp.1.y) && qp.2.joinCanGo

/-- The plots of a parcel that are not quiescent, in the order of the plot list (R209). -/
def State.notQuiet (s : State) (q : Parcel) : List XY :=
  ((s.parcelPlots q).filter fun qp => !(s.alive (s.phys qp.1.x qp.1.y) && qp.2.quiescentNow)).map (·.1)

/-- Order a drain (R202): kind 0 pre-emption, 1 fault, 2 deadlock. A parcel that has never run is quiescent at once; a deadlock drain decides
at once and settles. A staged swap is refused (10 R371). Idle ends (14 R483). -/
def State.orderDrain (s : State) (q : Parcel) (kind : Nat) (scan withMemory : Bool) (dest room : Nat) (cmd : Option Cmd) : State :=
  let d : Drain := { kind := kind, scan := scan, withMemory := withMemory, dest := dest, room := room, start := s.netCycles, cmd := cmd, outcome := none
                     cycles := 0, notQuiet := 0, firstNot := none, settling := false }
  let s := s.wake.setParcel { q with drain := some d, phase := .draining, quiet := 0, ends := 0, expired := false }
  let s := s.refuseSwap q.num
  let s := s.mapParcel q Plot.enterDrain
  let put (s : State) (d : Drain) : State :=
    match s.parcel q.num with
    | some q => s.setParcel { q with drain := some d }
    | none => s
  if !q.ran then (put s { d with outcome := some 0 }).endPlots q
  else if kind = 2 then
    let bad := s.notQuiet q
    (put s { d with outcome := some 2, notQuiet := bad.length, firstNot := bad.head?, settling := true }).stopPlots q
  else s

/-- Where a fault or deadlock drain scans to, and in how many bytes: the fault area, when the runtime has given one (13 R438). -/
def Parcel.faultScan (q : Parcel) : Nat × Nat × Bool :=
  match q.faultArea with
  | some (a, n) => (a, n, true)
  | none => (0, 0, false)

/-- 05 R201: the watchdog has found no progress: the parcel is drained without run-down. -/
def execParcelDeadlock (parcel : Nat) (s : State) : Host.Outcome State Fault Refusal :=
  match s.parcel parcel with
  | none => .next s
  | some q =>
    if !q.expired || q.drain.isSome then .next s
    else
      let (area, room, scan) := q.faultScan
      .next (s.orderDrain q 2 scan false area room none)

/-- Theodolite orders the fault drain of a parcel whose fault no fault drain has reported, whatever its phase (13 R438); a drain under way that
is not decided becomes one, and scans as one (05 R202). One that is decided ends first. -/
def State.faultDrain (s : State) (q : Parcel) : State :=
  if !(q.fault.any fun f => !f.reported) || !s.serves .theodolite then s
  else
    let (area, room, scan) := q.faultScan
    match q.drain with
    | some d =>
      if d.outcome.isSome ∨ d.kind = 1 then s
      else s.setParcel { q with drain := some { d with kind := 1, scan := scan, withMemory := false, dest := area, room := room } }
    | none => s.orderDrain q 1 scan false area room none

/-- 05 R202, R276, 13 R438, 16 R514. -/
def execFaultDrainOrder (parcel : Nat) (s : State) : Host.Outcome State Fault Refusal :=
  match s.parcel parcel with
  | none => .next s
  | some q => .next (s.faultDrain q)

/-- Insert a parcel into a list in order of the cycle of its fault. -/
def insertByCycle (q : Parcel) : List Parcel → List Parcel
  | [] => [q]
  | p :: r =>
    let at' (p : Parcel) : Nat := (p.fault.map (·.cycle)).getD 0
    if at' q < at' p then q :: p :: r else p :: insertByCycle q r

/-- Theodolite, after a restart, services the faults it finds in order of CYCLE (13 R457). -/
def State.serviceFaults (s : State) : State :=
  ((s.parcels.filter fun q => q.fault.any fun f => !f.reported).foldl (fun l q => insertByCycle q l) []).foldl
    (fun (s : State) q => match s.parcel q.num with
      | some q => s.faultDrain q
      | none => s) s

/-! ## Quiescence and timeout (05 R205-R208) -/

/-- Nothing of a parcel's own traffic is in flight: no tally of its trees (07 R262), no packet from one of its plots to another (R206: an interval exceeds
every transfer bound). -/
def State.nothingInFlight (s : State) (q : Parcel) : Bool :=
  s.nimbus.all (fun t => !(q.trees ++ q.spans).contains t.tree)
    && s.stratus.all fun e => match e.pkt.src, e.pkt.dst with
      | .plot x y, .plot u v => !(q.has x y && q.has u v)
      | _, _ => true

/-- The reports of one interval on their way to the root (R206, 08 R304): whether every plot's got there and said that it was quiescent. A parity error
loses one of them. -/
def State.quietReports (s : State) (q : Parcel) (parityOk : Bool) : State × Bool :=
  let (s, ok) := (s.parcelPlots q).foldl (fun (a : State × Bool) qp =>
    if !a.1.alive (a.1.phys qp.1.x qp.1.y) then (a.1, false)
    else
      let quiet := qp.2.watch.quiet && qp.2.quiescentNow
      let (s, here) := a.1.reportUp q qp.1 4 (bit quiet 0) true
      (s, a.2 && here && quiet)) (s, true)
  if parityOk then (s, ok)
  else ((q.plots.head?.map fun p => (s.reportUp q p 4 0 false).1).getD s, false)

/-- 05 R206, 07 R262: one interval's reports reach the root; two in succession with every plot quiescent decide. -/
def execQuiescenceReport (a : ParcelReport) (s : State) : Host.Outcome State Fault Refusal :=
  match s.parcel a.parcel with
  | none => .next s
  | some q =>
    match q.drain with
    | none => .next s
    | some d =>
      if d.outcome.isSome then .next s
      else
        let idle := s.nothingInFlight q && !s.joinGoesOn q
        let (s, ok) := s.quietReports q a.parityOk
        let q := (s.parcel a.parcel).getD q
        let n := if ok && idle then q.quiet + 1 else 0
        let s := s.mapParcel q fun p => { p with watch := { p.watch with quiet := p.quiescentNow } }
        if n < 2 then .next (s.setParcel { q with quiet := n })
        else
          let d := { d with outcome := some 0, cycles := s.netCycles - d.start }
          .next ((s.setParcel { q with quiet := n, drain := some d }).endPlots q)

/-- 05 R207: a plot's count expires before the root has decided: every plot stops. A parcel with no live plot left times out too (13 R453: the
lost plots never report). -/
def execDrainTimeout (p : XY) (s : State) : Host.Outcome State Fault Refusal :=
  match s.parcelAt p.x p.y with
  | none => .next s
  | some q =>
    match q.drain with
    | none => .next s
    | some d =>
      if d.outcome.isSome || (!s.alive (s.phys p.x p.y) && (s.parcelPlots q).any fun qp => s.alive (s.phys qp.1.x qp.1.y)) then .next s
      else
        let bad := s.notQuiet q
        let d := { d with outcome := some 1, cycles := s.netCycles - d.start, notQuiet := bad.length, firstNot := bad.head?, settling := true }
        .next ((s.setParcel { q with drain := some d }).stopPlots q)

/-- 05 R207: 4,096 network cycles after the stop the plots enter QUIESCENT; the result that a voted join awaits has come by then, and its steps are
carried out (07 R275, R276). -/
def execTimeoutSettle (parcel : Nat) (s : State) : Host.Outcome State Fault Refusal :=
  match s.parcel parcel with
  | none => .next s
  | some q =>
    match q.drain with
    | none => .next s
    | some d =>
      if !d.settling || s.joinGoesOn q then .next s
      else .next ((s.setParcel { q with drain := some { d with settling := false } }).endPlots q)

/-! ## The scan and the reports (05 R209-R212, 13 R438-R443) -/

/-- A range of a root access that touches an address that is not present: an address fault at its source, which here is a command of the Chartroom (09 R316; log
entry 83). -/
def rootBad (addr len : Nat) : Bool := decide (0x6000000000 < addr + len)

/-- Write bytes to edge memory from the Cirrus root, granule by granule (08 R302), after what its controller has accepted (09 R327). -/
def State.rootWrite (s : State) (addr : Nat) (d : Data) : Nat → State
  | 0 => s
  | n + 1 =>
    if d.isEmpty || !edgePresent addr then s
    else
      let s := s.wake
      let room := 4096 - addr % 4096
      let here := d.take room
      let c := (edgePlace addr).1
      let s := ((s.settleRoot c addr here.length true).edgeWriteAt c addr here).countEmc c 3 ((here.length + 511) / 512)
      s.rootWrite (addr + room) (d.drop room) n

/-- Read bytes of edge memory to the Cirrus root. -/
def State.rootRead (s : State) (addr len : Nat) : Nat → State × Data
  | 0 => (s, [])
  | n + 1 =>
    if len = 0 ∨ edgePresent addr = false then (s, [])
    else
      let s := s.wake
      let k := min len (4096 - addr % 4096)
      let c := (edgePlace addr).1
      let (s, d) := (s.settleRoot c addr k false).edgeReadAt c addr k
      let s := s.countEmc c 2 ((k + 511) / 512)
      let (s, rest) := s.rootRead (addr + k) (len - k) n
      (s, d ++ rest)

/-- One record a plot, in the order of the plot list (R212); of a fault area too small for them all, those that lie in it (DESIGN CHOICE, log entry
83). -/
def State.scan (s : State) (q : Parcel) (dest room : Nat) (withMemory : Bool) : State :=
  ((q.plots.zipIdx).foldl (fun (s : State) qi =>
    let ph := s.phys qi.1.x qi.1.y
    let p := s.plot ph
    if !s.powered (fieldOf qi.1.x qi.1.y) || decide (room < (qi.2 + 1) * recordSize withMemory) then s
    else
      let (p', rec) := p.record (s.view ph) q.digest withMemory
      (s.putPlot ph p p').rootWrite (dest + qi.2 * recordSize withMemory) (cleanData rec) 64) s)

def State.countFaulted (s : State) (q : Parcel) : Nat := ((s.parcelPlots q).filter fun qp => qp.2.st == .faulted).length

/-- The drain report (15 R501). -/
def State.drainWords (s : State) (q : Parcel) (d : Drain) : List Nat :=
  [q.num + d.kind * 2 ^ 8 + (d.outcome.getD 0) * 2 ^ 10 + d.cycles % 2 ^ 32 * 2 ^ 32, d.notQuiet + s.countFaulted q * 2 ^ 32,
   match d.firstNot with | some p => s.plotAddr p.x p.y | none => 0]

/-- The field whose cycle count a fault report gives: where the first fault was. -/
def ParcelFault.field (f : ParcelFault) : Nat := if f.cause = 5 then f.first else fieldOf (bitsOf f.first 38 28) (bitsOf f.first 27 18)

/-- The cause code of R87 in a list entry: the first cause of the trap record. -/
def Plot.causeCode (p : Plot) : Nat := bitsOf p.trap.info.toNat 3 1

/-- The fault report (13 R439, R440). -/
def State.faultReport (s : State) (q : Parcel) (f : ParcelFault) (d : Drain) : List Byte :=
  let bad := (s.parcelPlots q).filter fun qp => qp.2.st == .faulted
  let torn := (s.parcelPlots q).any fun qp => qp.2.group.flags.getLsbD gTorn
  let outcome := if d.outcome = some 0 then 0 else 1
  let listed := bad.take 4096
  leBytes 1 q.num ++ leBytes 1 f.cause ++ leBytes 1 (bit torn 0 + bit (d.scan && d.kind == 1) 1 + bit f.rerun 2) ++ leBytes 1 outcome
    ++ leBytes 4 bad.length ++ leBytes 8 f.first ++ (f.trap ++ zeros 0x30).take 0x30 ++ leBytes 8 f.cycle ++ leBytes 8 f.epoch
    ++ leBytes 4 d.cycles ++ leBytes 4 listed.length ++ zeros 40
    ++ listed.flatMap fun qp => leBytes 8 (s.plotAddr qp.1.x qp.1.y + qp.2.causeCode)

def State.isSuspect (s : State) (phys : Nat) : Bool := s.svc.suspects.any fun u => u.phys == phys

/-- A plot becomes suspect, with this record and sheet (R443, R446); its rerun is queued. -/
def State.suspectAs (s : State) (phys : Nat) (record sheet : List Byte) : State :=
  if s.isSuspect phys then s
  else { s with svc := { s.svc with suspects := s.svc.suspects ++ [⟨phys, record, sheet, none, [], none⟩] } }

/-- A plot that raised a sequencer mismatch or failed a patrol test becomes suspect (R443): Theodolite copies the record with memory, and the current
sheet. -/
def State.suspect (s : State) (phys : Nat) (digest : List Byte) : State :=
  let p := s.plot phys
  let (p', rec) := p.record (s.view phys) digest true
  if s.isSuspect phys then s else (s.putPlot phys p p').suspectAs phys rec (cellsRead p.seq.cache (1024 * p.seq.cur) 1024)

def State.markSuspects (s : State) (q : Parcel) : State :=
  q.plots.foldl (fun (s : State) xy =>
    let ph := s.phys xy.x xy.y
    if (s.plot ph).seq.mismatched then s.suspect ph q.digest else s) s

/-- Whether a drain's end waits for Theodolite: the reports of fault and deadlock drains, and the copy of a suspect (13 R443, R457). -/
def State.endWaits (s : State) (q : Parcel) (d : Drain) : Bool :=
  !s.serves .theodolite && (d.kind != 0 || (s.parcelPlots q).any fun qp => qp.2.seq.mismatched)

/-- The end of a decided drain (05 R208, R209, 13 R439, R443, 15 R501): it scans what it was asked to, and reports. -/
def State.finishDrain (s : State) (q : Parcel) (d : Drain) : State :=
  let s := if d.scan then s.scan q d.dest d.room d.withMemory else s
  let s := s.markSuspects q
  let reran := q.plots.any fun xy => s.svc.suspects.any fun u => u.phys == s.phys xy.x xy.y
  let f := q.fault.map fun f => { f with rerun := reran, reported := f.reported || d.kind == 1 }
  let words := s.drainWords q d
  let s := s.setParcel { q with drain := none, phase := .drained, lastOutcome := d.outcome, fault := f,
                                spent := q.spent || d.outcome != some 0 || s.countFaulted q != 0 }
  let s := match d.cmd with
    | some c => s.complete c stOk words
    | none => s.event 0x04 words none
  match f with
  | some f => if d.kind = 1 then s.eventFrom f.field f.cycle f.epoch 0x03 [] (some (s.faultReport q f d)) else s
  | none => s

/-- 05 R208, R209, 13 R439, R443, R457, 15 R501: a drain that has been decided ends. -/
def execScanComplete (parcel : Nat) (s : State) : Host.Outcome State Fault Refusal :=
  match s.parcel parcel with
  | none => .next s
  | some q =>
    match q.drain with
    | none => .next s
    | some d => .next (if d.outcome.isNone || d.settling || s.endWaits q d then s else s.finishDrain q d)

/-- 10 R366: two intervals with every plot ended post PARCEL_ENDED, once. -/
def execEndReport (parcel : Nat) (s : State) : Host.Outcome State Fault Refusal :=
  match s.parcel parcel with
  | none => .next s
  | some q =>
    if q.phase != .running then .next s
    else
      let n := if s.allEnded q then q.ends + 1 else 0
      let un := (s.parcelPlots q).any fun qp => qp.2.group.last != 0
      let q' := { q with ends := n, uncommitted := un }
      if 2 ≤ n ∧ q.endPosted = false then .next ((s.setParcel { q' with endPosted := true }).event 0x01 [q.num + bit un 8] none)
      else .next (s.setParcel q')

/-! ## Gates (10 R364, R365) -/

/-- The gate opens at a plot: LOADED goes to RUNNING, or to QUIESCENT when its restored record had ended; a QUIESCENT plot that has not ended
goes back to RUNNING (05 R178, R223). After a restore the running counts of channels restart (06 R242). -/
def Run.openGate (r : Run) : Run :=
  let chans := if r.p.restored then r.p.chans.map fun c => { c with msgs := 0, stalls := 0, drops := 0, wrap := 0 } else r.p.chans
  let r := { r with p := { r.p with gate := true, restored := false, chans := chans, watch := { Watch.reset with moved := r.p.watch.moved } } }
  let r :=
    if r.p.st = .loaded then
      (if r.p.restoredEnded then { r with p := { r.p with st := .quiescent } } else r.enterRunning)
    else if r.p.st = .quiescent ∧ r.p.seq.ended = false then r.enterRunning
    else r
  r.flushAllOwed

/-- Open the gates of a parcel: its slots first, then the gates. -/
def State.openParcel (s : State) (q : Parcel) : State :=
  let s := s.wake.activate q
  let s := s.setParcel { q with phase := .running, ran := true, ends := 0, quiet := 0, expired := false }
  s.onParcel q Run.openGate

end Sys2Proof.Machine
end

