-- ==== Sys2Proof/Machine/Atlas.lean ====
section
/-! DEFINITION. The atlas: its layout, and the checks of a load or swap in order (spec/10 R342-R360, R562, with the refusals of spec/02 R67,
R71, spec/04 R165, spec/05 R190, R194, spec/06 R215, R229, R243, spec/07 R258, spec/09 R323, spec/16 R514, R518, R521). A refusal is (code,
section, entry) of R360, and the first one is the lowest in table and entry order; where the rules do not say which entry a check over several
entries belongs to, log entry 26 does. -/

namespace Sys2Proof.Machine

abbrev Refuse := Nat × Nat × Nat
abbrev Ref := Nat × Nat

/-- n bytes at an offset, as a little-endian number. -/
def fld (b : List Byte) (o n : Nat) : Nat := leNat ((b.drop o).take n)

/-- Whether all bytes of a range are zero. -/
def zeroAt (b : List Byte) (o n : Nat) : Bool := ((b.drop o).take n).all (· == 0)

structure Sect where
  idx : Nat
  typ : Nat
  ents : List (List Byte)
  deriving DecidableEq, Repr

/-- An atlas whose framing has been read. -/
structure Atlas where
  minor : Nat
  keyIndex : Nat
  device : Nat
  any : Bool
  sects : List Sect
  signed : List Byte
  sig : List Byte
  deriving DecidableEq, Repr

/-- The entry size of a section type (R344). -/
def entrySize (t : Nat) : Nat :=
  match t with
  | 1 => 256
  | 2 => 16
  | 3 => 1040
  | 4 => 32
  | 5 => 32
  | 6 => 16
  | 7 => 8
  | 8 => 96
  | _ => 0

def chunks (size : Nat) (b : List Byte) : Nat → List (List Byte)
  | 0 => []
  | n + 1 => b.take size :: chunks size (b.drop size) n

structure TableEntry where
  typ : Nat
  count : Nat
  off : Nat
  bytes : Nat
  zero : Bool
  deriving DecidableEq, Repr

def tableEntry (a : List Byte) (i : Nat) : TableEntry :=
  let e := (a.drop (0x100 + 32 * i)).take 32
  { typ := fld e 0 2, count := fld e 4 4, off := fld e 8 8, bytes := fld e 0x10 8, zero := zeroAt e 2 2 && zeroAt e 0x18 8 }

/-- Whether a section's TYPE is one of the table of R344; one of a reserved TYPE is skipped above minor version 0 (R562). -/
def TableEntry.known (t : TableEntry) : Bool := decide (1 ≤ t.typ ∧ t.typ ≤ 8)

/-- A table entry that R344 refuses by itself. -/
def tableBad (minor sections sigOff : Nat) (t : TableEntry) : Bool :=
  if t.known then
    (minor == 0 && !t.zero) || t.off % 64 != 0 || decide (t.off < 0x100 + 32 * sections) || decide (sigOff < t.off + t.bytes)
      || t.bytes != t.count * entrySize t.typ
  else minor == 0

def tableOverlap : List TableEntry → Bool
  | [] => false
  | t :: r => (r.any fun u => decide (t.off < u.off + u.bytes ∧ u.off < t.off + t.bytes)) || tableOverlap r

/-- A header that R342, R343 and R562 refuse. -/
def headBad (a : List Byte) (len : Nat) : Bool :=
  let n := fld a 0x0C 4
  let sigOff := fld a 0x18 8
  let headZero := zeroAt a 0x22 6 && bitsOf (fld a 0x28 2) 14 10 == 0 && zeroAt a 0x2A 0x16 && zeroAt a 0x80 0x80
  decide (a.length ≠ len ∨ len < 0x100 ∨ fld a 0 8 ≠ 0x3153414C54415141 ∨ fld a 8 2 ≠ 1 ∨ n < 2 ∨ 64 < n ∨ fld a 0x10 8 ≠ len
    ∨ sigOff % 64 ≠ 0 ∨ sigOff + 512 ≠ len ∨ 7 < fld a 0x20 2 ∨ (fld a 0x0A 2 = 0 ∧ headZero = false))

/-- Read the framing (R342-R344, R562): code 1 and the entry of the table where it fails. -/
def Atlas.read (a : List Byte) (len : Nat) : Except Refuse Atlas :=
  let minor := fld a 0x0A 2
  let n := fld a 0x0C 4
  let sigOff := fld a 0x18 8
  if headBad a len then .error (1, 63, 0)
  else
    let ts := (List.range n).map (tableEntry a)
    let count (t : Nat) : Nat := (ts.filter fun u => u.typ == t).length
    match ts.findIdx? (tableBad minor n sigOff) with
    | some i => .error (1, 63, i)
    | none =>
      if count 1 ≠ 1 ∨ count 2 ≠ 1 ∨ count 3 = 0 ∨ count 5 ≠ 1 ∨ 1 < count 6 ∨ 1 < count 7 ∨ 1 < count 8 ∨ tableOverlap (ts.filter (·.known)) = true
          ∨ (ts.any fun t => (t.typ == 1 || t.typ == 7) && t.count != 1) then .error (1, 63, 0)
      else
        .ok { minor := minor, keyIndex := fld a 0x20 2, device := fld a 0x28 2 % 1024, any := (fld a 0x28 2).testBit 15
              sects := ((ts.zipIdx).filter fun ti => ti.1.known).map fun ti => ⟨ti.2, ti.1.typ, chunks (entrySize ti.1.typ) (a.drop ti.1.off) ti.1.count⟩
              signed := a.take sigOff, sig := (a.drop sigOff).take 512 }

/-- Entries of one type in section order, each with its place. -/
def Atlas.ents (a : Atlas) (typ : Nat) : List (Ref × List Byte) :=
  a.sects.flatMap fun s => if s.typ = typ then (s.ents.zipIdx).map fun ei => ((s.idx, ei.2), ei.1) else []

def Atlas.parcelEnt (a : Atlas) : List Byte := ((a.ents 1).head?.map (·.2)).getD []

/-- The rectangle of an entry. -/
def entRect (e : List Byte) : Rect := rectOf (fld e 0 8)
/-- R345: ordered, on the grid; its zero bits checked at minor version 0. -/
def entRectBad (minor : Nat) (e : List Byte) : Bool :=
  let r := entRect e
  (minor == 0 && (bitsOf (fld e 0 8) 31 21 != 0 || bitsOf (fld e 0 8) 63 53 != 0))
    || !decide (r.x0 ≤ r.x1 ∧ r.x1 ≤ 1199 ∧ r.y0 ≤ r.y1 ∧ r.y1 ≤ 767)

/-- The plot list with entry sheets (R348). -/
def Atlas.list (a : Atlas) : List (Rect × Nat) := (a.ents 2).map fun e => (entRect e.2, fld e.2 8 1 % 8)

def Rect.meets (r t : Rect) : Bool := decide (t.x0 ≤ r.x1 ∧ r.x0 ≤ t.x1 ∧ t.y0 ≤ r.y1 ∧ r.y0 ≤ t.y1)

/-- What is left of a rectangle outside another: above, below, left and right of it. -/
def Rect.minus (r t : Rect) : List Rect :=
  if !r.meets t then [r]
  else
    let y0 := max r.y0 t.y0
    let y1 := min r.y1 t.y1
    (if r.y0 < t.y0 then [{ r with y1 := t.y0 - 1 }] else []) ++ (if t.y1 < r.y1 then [{ r with y0 := t.y1 + 1 }] else [])
      ++ (if r.x0 < t.x0 then [{ r with x1 := t.x0 - 1, y0 := y0, y1 := y1 }] else [])
      ++ (if t.x1 < r.x1 then [{ r with x0 := t.x1 + 1, y0 := y0, y1 := y1 }] else [])

/-- Every plot of a rectangle belongs to the parcel, the union of its rectangles (R345, R348). -/
def rectInside (l : List (Rect × Nat)) (r : Rect) : Bool :=
  (l.foldl (fun (left : List Rect) p => left.flatMap (·.minus p.1)) [r]).isEmpty

/-- The last entry that sets an item of a plot (R345). -/
def lastSetting (es : List (Ref × List Byte)) (x y : Nat) (f : List Byte → Bool) : Option (Ref × List Byte) :=
  (es.filter fun e => (entRect e.2).has x y && f e.2).getLast?

/-! ## Sheets (R349) -/

def Atlas.sheetAt (a : Atlas) (x y s : Nat) : Option (Ref × List Byte) := lastSetting (a.ents 3) x y fun e => fld e 8 1 % 8 == s

/-- The sheet cache the load gives a plot. -/
def Atlas.cacheAt (a : Atlas) (x y : Nat) : List Host.Cell :=
  let bytes := (List.range 8).flatMap fun s => match a.sheetAt x y s with
    | some e => (e.2.drop 16).take 1024
    | none => zeros 1024
  ((bytes.zipIdx).filter fun bi => bi.1 != 0).map fun bi => (bi.2, bi.1)

/-! ## Channels, rings, writers (R350, R351) -/

/-- A target or writer address under REL: the device and a signed offset, or the address as it stands. -/
def resolveAddr (own : Nat) (rel : Bool) (v x y : Nat) : Nat × Int × Int :=
  if rel then (own, (x : Int) + sextNat 11 (bitsOf v 38 28), (y : Int) + sextNat 10 (bitsOf v 27 18))
  else (bitsOf v 48 39, (bitsOf v 38 28 : Int), (bitsOf v 27 18 : Int))

def onGridInt (x y : Int) : Bool := decide (0 ≤ x ∧ x ≤ 1199 ∧ 0 ≤ y ∧ y ≤ 767)

structure ChanCfg where
  ref : Ref
  dest : W64
  rsz : Nat
  ok : Bool
  deriving DecidableEq, Repr

/-- Channel c as the load sets it at a plot. -/
def Atlas.chanAt (a : Atlas) (own x y c : Nat) : Option ChanCfg :=
  match lastSetting (a.ents 4) x y fun e => fld e 8 1 == 0 && fld e 9 1 == c with
  | none => none
  | some (ref, e) =>
    let v := fld e 0x10 8
    let rel := (fld e 0x0A 1).testBit 0
    let seq := (fld e 0x0A 1).testBit 1
    let kind := v % 4
    if kind = 2 then
      let n := bitsOf v 17 6 + (if seq then (entRect e).index x y else 0)
      let dev := if rel then own else bitsOf v 48 39
      some ⟨ref, putBits (putBits (putBits (BitVec.ofNat 64 v) 17 6 n) 48 39 dev) 38 18 0, fld e 0x18 4 % 16, decide (n ≤ 4095)⟩
    else
      let (d, tx, ty) := resolveAddr own rel v x y
      let w := putBits (putBits (putBits (BitVec.ofNat 64 v) 48 39 d) 38 28 tx.toNat) 27 18 ty.toNat
      some ⟨ref, w, fld e 0x18 4 % 16, onGridInt tx ty⟩

/-- The channel as its image has it (06 R218): an RTAIL that is not zero is loaded as given, since no rule refuses it (DESIGN CHOICE, log entry
97). -/
def ChanCfg.chan (c : ChanCfg) : Channel := { Channel.reset with dest := c.dest, rsz := c.rsz }

/-- RING_CFG of ring n at a plot. -/
def Atlas.ringAt (a : Atlas) (x y n : Nat) : Option (Ref × Nat) :=
  (lastSetting (a.ents 4) x y fun e => fld e 8 1 == 1 && fld e 9 1 == n).map fun re => (re.1, fld re.2 0x10 4)

def ringCfg (v : Nat) : Ring :=
  { Ring.reset with base := bitsOf v 17 0, rsz := bitsOf v 21 18, enable := v.testBit 22 }

/-- The writer of a reader (0-15 queues, 16-23 rings) at a plot, and whether its address resolves on the grid. -/
def Atlas.writerAt (a : Atlas) (own x y reader : Nat) : Option (Ref × Writer × Bool) :=
  match lastSetting (a.ents 4) x y fun e => fld e 8 1 == 2 && fld e 9 1 % 32 == reader with
  | none => none
  | some (ref, e) =>
    let v := fld e 0x10 8
    let src := fld e 0x18 1
    let rel := (fld e 0x0A 1).testBit 0
    let seq := (fld e 0x0A 1).testBit 1
    if src.testBit 4 then
      let n := fld e 0x1A 2 + (if seq then (entRect e).index x y else 0)
      some (ref, .stream (src % 16) n, decide (n ≤ 4095))
    else
      let (d, wx, wy) := resolveAddr own rel v x y
      let inside := d == own && a.list.any fun p => p.1.has wx.toNat wy.toNat
      some (ref, .channel d wx.toNat wy.toNat (src % 16) inside, onGridInt wx wy)

/-! ## Trees (R353, R354) -/

/-- Word 0 of a slot after renumbering. -/
def treeWord (base : Nat) (e : List Byte) : W64 :=
  let w := BitVec.ofNat 64 (fld e 16 8)
  if w.getLsbD 22 then w else putBits w 11 0 ((w.toNat + base) % 4096)

def Atlas.slotAt (a : Atlas) (base x y k : Nat) : Option (Ref × Slot) :=
  (lastSetting (a.ents 5) x y fun e => fld e 8 1 % 16 == k).map fun re => (re.1, { Slot.reset with w0 := treeWord base re.2 })

/-- The parcel's drain tree after renumbering: it does not span unless a spanning slot bears its number. -/
def Atlas.drainTree (a : Atlas) (base : Nat) : Nat :=
  let t := fld a.parcelEnt 2 2 % 4096
  let spans := (a.ents 5).any fun e => let w := BitVec.ofNat 64 (fld e.2 16 8); w.toNat % 4096 == t && w.getLsbD 22
  if spans then t else (t + base) % 4096

/-- Every plot of the parcel. -/
def Atlas.plots (a : Atlas) : List XY := a.list.flatMap fun p => p.1.plots

/-- The nodes the load gives, with where each comes from. -/
def Atlas.nodes (a : Atlas) (base : Nat) (phys : XY → Nat) : List (Ref × Node) :=
  a.plots.flatMap fun q => (List.range 16).filterMap fun k =>
    match a.slotAt base q.x q.y k with
    | some (ref, v) => if v.role = 0 then none else some (ref, ⟨q.x, q.y, phys q, k, v⟩)
    | none => none

/-! ## Checks of single entries -/

/-- Zero bits of an entry outside the device images, checked at minor version 0 (R562). -/
def strayBits (minor : Nat) (b : Bool) : Bool := minor == 0 && b

def listBad (a : Atlas) (e : List Byte) : Bool :=
  entRectBad a.minor e || strayBits a.minor (fld e 8 1 / 8 != 0 || !zeroAt e 9 7)

/-- A rectangle that breaks R345 in a section after the plot list. -/
def memberBad (a : Atlas) (e : List Byte) : Bool := entRectBad a.minor e || !rectInside a.list (entRect e)

/-- A sheet entry: code 6 or 7. -/
def sheetEntBad (a : Atlas) (ref : Ref) (e : List Byte) : Option Nat :=
  if memberBad a e || strayBits a.minor (fld e 8 1 / 8 != 0 || !zeroAt e 9 7) then some 6
  else
    let s := fld e 8 1 % 8
    let here := (entRect e).plots.filter fun q => (a.sheetAt q.x q.y s).map (·.1) == some ref
    let caches := here.map fun q => a.cacheAt q.x q.y
    if caches.any fun c => sheetValid c s && (sheetBadHeader c s || (sheetFin c s).bad) then some 6
    else if caches.any fun c => sheetValid c s && sheetBadSteer c s then some 7
    else none

/-- Credit a channel may start with (06 R219, R243): 16 for a queue, the ring's units, none to a port (11 R398). -/
def creditMax (kind rsz : Nat) : Nat := match kind with | 0 => 16 | 1 => ringUnits rsz | _ => 0

def ringRegionBad (g : Ring) : Bool :=
  let size := 32 * ringUnits g.rsz
  g.base % 32 != 0 || decide (10 < g.rsz)
    || !(decide (g.base + size ≤ 0xC000) || (decide (0xC000 ≤ g.base) && decide (g.base + size ≤ 0x32000)))

/-- A channel-section entry: code 8 or 9. -/
def chanEntBad (a : Atlas) (own : Nat) (ref : Ref) (e : List Byte) : Option Nat :=
  let kind := fld e 8 1
  let idx := fld e 9 1
  let flags := fld e 0x0A 1
  let here := (entRect e).plots
  if memberBad a e || decide (2 < kind) || strayBits a.minor (flags / 4 != 0 || !zeroAt e 0x0B 5) then some 8
  else if kind = 0 then
    let v := fld e 0x10 8
    let st := fld e 0x18 4
    let k := v % 4
    if 15 < idx ∨ k = 3 ∨ v.testBit 62 = true ∨ st / 16 ≠ 0 ∨ (k = 1 ∧ 10 < st) ∨ strayBits a.minor (!zeroAt e 0x1C 4) = true ∨ creditMax k st < bitsOf v 61 49
        ∨ (k = 0 ∧ bitsOf v 17 6 ≠ 0) ∨ (k = 1 ∧ 7 < bitsOf v 5 2) ∨ (k = 2 ∧ bitsOf v 38 18 ≠ 0) then some 8
    else
      let cs := here.filterMap fun q => (a.chanAt own q.x q.y idx).filter fun c => c.ref == ref
      if cs.any fun c => !c.ok || (a.any && c.chan.dev != own) then some 8 else none
  else if kind = 1 then
    let v := fld e 0x10 4
    if 7 < idx ∨ v / 2 ^ 23 ≠ 0 ∨ strayBits a.minor (!zeroAt e 0x14 0xC) = true then some 8
    else if ringRegionBad (ringCfg v) then some 9
    else none
  else
    let v := fld e 0x10 8
    let src := fld e 0x18 1
    let port := src.testBit 4
    let strayAddr := v / 2 ^ 49 != 0 || v % 2 ^ 18 != 0 || (port && v != 0)
    let reader := idx % 32
    if 24 ≤ reader ∨ strayBits a.minor (idx / 32 != 0 || src / 32 != 0 || !zeroAt e 0x19 1 || !zeroAt e 0x1C 4 || strayAddr
        || (!port && !zeroAt e 0x1A 2)) = true then some 8
    else
      let ws := here.filterMap fun q => (a.writerAt own q.x q.y reader).filter fun w => w.1 == ref
      if ws.any fun w => !w.2.2 || (a.any && (match w.2.1 with | .channel d _ _ _ _ => d != own | .stream _ _ => false)) then some 8 else none

/-- A tree-section entry by itself (R253, R258, R353). -/
def treeEntBad (a : Atlas) (e : List Byte) : Bool :=
  let w := BitVec.ofNat 64 (fld e 16 8)
  let v : Slot := { Slot.reset with w0 := w }
  memberBad a e || strayBits a.minor (fld e 8 1 / 16 != 0 || !zeroAt e 9 7) || !zeroAt e 24 8 || decide (5 < v.role) || v.oper == 3
    || v.arrived || v.active || v.count != 0 || v.tally != 0 || w.getLsbD 23 || bitsOf w.toNat 63 62 != 0
    || (v.role == 5 && !v.spans) || (v.role == 1 && (v.root || v.expect != 0)) || (v.use == 3 && v.spans) || (a.any && v.spans)
    || (decide (2 ≤ v.role) && v.expect == 0)

/-- Two nodes of one tree and role whose regions overlap. -/
def regionsClash (m n : Node) : Bool :=
  m.slot.tree == n.slot.tree && m.slot.role == n.slot.role && covers m.slot.role m.x m.y n.x n.y

/-- The tree checks over all nodes (R258, R353): the entries at fault. `taken` are numbers other parcels hold. A link node's children are those
on this module and the device node of each other member (R254, log entry 20). Missing leaves of the drain tree are named at entry `first`. -/
def treesBad (own : Nat) (ns : List (Ref × Node)) (taken : List Nat) (plots : Nat) (drainTree : Nat) (first : Ref) : List Ref :=
  let all := ns.map (·.2)
  let ofTree (t : Nat) : List Node := all.filter fun m => m.slot.tree == t
  let faulty (n : Node) : Bool :=
    let mates := ofTree n.slot.tree
    let link := mates.any fun m => m.slot.role == 5
    let kids := (childrenOf mates n).length
    let expectBad :=
      if n.slot.role = 1 then false
      else if n.slot.role = 5 then n.slot.expect != kids + ((Config.treeMembers n.slot.tree).filter (· != own)).length
      else n.slot.expect != kids
    let roots := (mates.filter fun m => m.slot.root).length
    let orphan := !n.slot.root && (parentOf mates n).isNone && !(n.slot.role == 4 && n.slot.spans && !link)
    let rootsBad := if n.slot.spans then decide (1 < roots) || (link && roots == 0) else roots != 1
    taken.contains n.slot.tree || expectBad || orphan || rootsBad
      || (n.slot.tree == drainTree && n.slot.use != 1)
      || (mates.any fun m => !(m.phys == n.phys && m.k == n.k) && regionsClash m n)
  let leaves := (all.filter fun n => n.slot.tree == drainTree && n.slot.role == 1).length
  ((ns.filter fun rn => faulty rn.2).map (·.1)) ++ (if leaves = plots then [] else [first])

/-! ## The parcel entry (R347, R323) -/

def Atlas.windows (a : Atlas) : List EdgeWin :=
  (List.range 4).filterMap fun i =>
    let b := fld a.parcelEnt (8 + 16 * i) 8
    let l := fld a.parcelEnt (16 + 16 * i) 8
    if b.testBit 63 then some ⟨b % 2 ^ 40, l % 2 ^ 40, l.testBit 63⟩ else none

/-- A window whose reserved bits are not zero, where they are checked (R562), or one with VALID 0 whose BASE, LIMIT or WRITE is not (R347). -/
def windowStray (a : Atlas) : Bool :=
  (List.range 4).any fun i =>
    let b := fld a.parcelEnt (8 + 16 * i) 8
    let l := fld a.parcelEnt (16 + 16 * i) 8
    strayBits a.minor (bitsOf b 62 40 != 0 || bitsOf l 62 40 != 0)
      || (!b.testBit 63 && (b % 2 ^ 40 != 0 || l % 2 ^ 40 != 0 || l.testBit 63))

def windowBad (others : List EdgeWin) (w : EdgeWin) : Bool :=
  w.base % 4096 != 0 || w.limit % 4096 != 0 || decide (0x6000000000 < w.limit) || decide (w.limit ≤ w.base)
    || others.any fun v => (v.write || w.write) && decide (v.base < w.limit ∧ w.base < v.limit)

def Atlas.swapBase (a : Atlas) : Nat := fld a.parcelEnt 0x48 4 % 2 ^ 18
def Atlas.swapLen (a : Atlas) : Nat := fld a.parcelEnt 0x4C 4 % 2 ^ 18

/-- Code 15, then 11 for its windows. -/
def parcelBad (a : Atlas) (others : List EdgeWin) : Option Nat :=
  let e := a.parcelEnt
  let log := fld e 0 1
  if (log ≠ 0 ∧ ¬ (16 ≤ log ∧ log ≤ 40)) ∨ a.swapBase % 64 ≠ 0 ∨ a.swapLen % 64 ≠ 0 ∨ 0x32000 < a.swapBase + a.swapLen
      ∨ strayBits a.minor (fld e 1 1 / 2 != 0 || fld e 2 2 / 4096 != 0 || !zeroAt e 4 4 || fld e 0x48 4 / 2 ^ 18 != 0
        || fld e 0x4C 4 / 2 ^ 18 != 0 || !zeroAt e 0x50 0xB0) = true ∨ windowStray a = true then some 15
  else if a.windows.any (windowBad others) then some 11
  else none

/-! ## Routes, pace, images (R355-R357) -/

def bindingOf (e : List Byte) : Binding := { port := fld e 0 1 % 16, out := fld e 1 1 == 1, first := fld e 2 2, number := fld e 4 2 }

def Atlas.bindings (a : Atlas) : List Binding := (a.ents 6).map fun e => bindingOf e.2

def routeBad (a : Atlas) (others : List Binding) (e : List Byte) : Bool :=
  let b := bindingOf e
  decide (1 < fld e 1 1) || b.number == 0 || decide (4096 < b.first + b.number)
    || strayBits a.minor (fld e 0 1 / 16 != 0 || !zeroAt e 6 10)
    || others.any fun o => o.port == b.port && o.out == b.out && decide (o.first < b.first + b.number ∧ b.first < o.first + o.number)

def Binding.holds (bs : List Binding) (port n : Nat) (out : Bool) : Bool :=
  bs.any fun b => b.port == port && b.out == out && decide (b.first ≤ n ∧ n < b.first + b.number)

def paceBad (a : Atlas) (e : List Byte) : Bool :=
  let d := fld e 0 1
  let f := fld e 1 1
  let c := fld e 2 1
  decide (7 < d ∨ 7 < f ∨ 7 < c) || !decide (c ≤ d ∧ d ≤ f) || strayBits a.minor (!zeroAt e 3 5)

/-- DEFAULT, FLOOR, CEIL in force (R356). -/
def Atlas.pace (a : Atlas) : Nat × Nat × Nat :=
  match (a.ents 7).head? with
  | some e => (fld e.2 0 1, fld e.2 1 1, fld e.2 2 1)
  | none => (0, 7, 0)

def segOf (e : List Byte) : ImageSeg :=
  { rect := entRect e, off := fld e 8 4 % 2 ^ 18, len := fld e 0x0C 4 % 2 ^ 18, port := fld e 0x10 1 % 16, stream := fld e 0x12 2
    digest := (e.drop 0x20).take 64, got := [], passed := false }

def Atlas.segs (a : Atlas) : List ImageSeg := (a.ents 8).map fun e => segOf e.2

def ImageSeg.clash (a b : ImageSeg) : Bool :=
  a.rect.meets b.rect && decide (a.off < b.off + b.len ∧ b.off < a.off + a.len)

/-- `area` is the swap area that a swap's images must lie in (R369). -/
def segBad (a : Atlas) (area : Option (Nat × Nat)) (i : Nat) (e : List Byte) : Bool :=
  let g := segOf e
  memberBad a e || g.off % 64 != 0 || g.len % 64 != 0 || g.len == 0 || decide (0x32000 < g.off + g.len) || decide (4095 < g.stream)
    || strayBits a.minor (fld e 8 4 / 2 ^ 18 != 0 || fld e 0x0C 4 / 2 ^ 18 != 0 || fld e 0x10 1 / 16 != 0 || !zeroAt e 0x11 1 || !zeroAt e 0x14 12)
    || ((a.segs.take i).any g.clash)
    || (match area with
        | some (b, l) => !decide (b ≤ g.off ∧ g.off + g.len ≤ b + l)
        | none => false)

/-! ## Signature and device (R343, R346, 16 R514, R518, R521) -/

/-- The atlas key of a slot, when it is usable (16 R518). -/
def State.atlasKey (s : State) (slot : Nat) : Option (List Byte) :=
  let t := s.nv.running.keyTable
  let owner := t.take 512
  let fused := (List.range 16).flatMap fun i => leBytes 4 (s.nv.fuse (0x10 + i)).toNat
  if (fld t 0x1200 4).testBit slot = true ∧ (s.nv.fuse 2).getLsbD slot = false ∧ sha512 owner = fused then
    some ((t.drop (0x200 + 0x200 * slot)).take 512)
  else none

/-- Whether the security state accepts an atlas (16 R514, R521). -/
def State.accepts (s : State) (a : Atlas) : Bool :=
  let ok := match s.atlasKey a.keyIndex with
    | some k => rsaVerify k a.sig a.signed
    | none => false
  match s.nv.secState with
  | 0 => true
  | 1 => ok || a.sig.all (· == 0)
  | 2 => ok
  | _ => false

/-! ## Checks over plots -/

/-- A plot that may not be loaded (code 5): void or dead, fenced, in TEST, in a field that is fenced, unsupplied or in stitch mode, or in
another parcel. `void` lets a void plot pass, for step 4 to repair. -/
def State.unavailable (s : State) (self : Nat) (void : Bool) (q : XY) : Bool :=
  let ph := s.phys q.x q.y
  let p := s.plot ph
  let f := s.field (fieldOf q.x q.y)
  (if s.isDead ph then !void else p.fence || p.st == .test || p.st == .fenced) || f.fenced || f.stitch || !s.powered (fieldOf q.x q.y)
    || (p.parcel != 0 && p.parcel != self)

/-- The operations of a sheet that read and send: an illegal one does neither (02 R81, R87). -/
def sheetLegalOps (cache : List Host.Cell) (s : Nat) : List W128 :=
  ((List.range (sheetHeader cache s).opCount).map (sheetOp cache s)).filter fun w => !opIllegal w

/-- Queues and rings that a sheet reads (R352): firing rule, operations, steering. -/
def sheetReaders (cache : List Host.Cell) (s : Nat) : List Nat :=
  let h := sheetHeader cache s
  let ops := sheetLegalOps cache s
  ((List.range 16).filter h.inQ.testBit) ++ ((List.range 8).filter h.inR.testBit).map (· + 16)
    ++ ops.flatMap opQueues ++ (ops.flatMap opRings).map (· + 16) ++ h.steer0.queues ++ h.steer1.queues

/-- Bytes of the messages an operation puts on its channel (06 R221): a send's length, a move's unit, a vector's result, a finish's unit. -/
def sentBytes (w : W128) : Option Nat :=
  if opIllegal w then none
  else match opClass w with
    | 2 | 3 => some (vecBytes (vecShape w).dst (vecElems (vecShape w).src (vecShape w).dst))
    | 4 => if mpEdge (opParam w) then none else some (mpUnit (opParam w))
    | 5 => some (sendShape w).2
    | 7 => some 32
    | _ => none

/-- Channels that a sheet's operations and steering rules name, each with the bytes of its messages. -/
def sheetSends (cache : List Host.Cell) (s : Nat) : List (Nat × Option Nat) :=
  let h := sheetHeader cache s
  let ops := (List.range h.opCount).map (sheetOp cache s)
  (ops.filterMap fun w => ((opChan w).filter (decide <| · < 16)).map fun c => (c, sentBytes w))
    ++ (h.steer0.chans ++ h.steer1.chans).map fun c => (c, some 32)

/-- R243: a message too long for its target. -/
def lengthBad (kind rsz : Nat) (len : Option Nat) : Bool :=
  match len with
  | none => false
  | some l =>
    if kind = 0 then l == 0 || decide (32 < l)
    else if kind = 1 then l == 0 || decide (4096 < l) || decide (ringUnits rsz < 2 * (1 + (l + 31) / 32))
    else l == 0

/-- The reader a channel resolves to, on this module. -/
def ChanCfg.reader (c : ChanCfg) : Nat := if c.chan.kind = 1 then 16 + c.chan.index else c.chan.index

/-- RING_CFG.RSZ of the ring that a channel names on this module (R243): as the atlas sets it, or as any other plot holds it now (log entry 84). -/
def State.ringSize (s : State) (a : Atlas) (t : Channel) : Option Nat :=
  if a.list.any fun p => p.1.has t.tx t.ty then some ((a.ringAt t.tx t.ty t.index).elim 0 fun v => (ringCfg v.2).rsz)
  else if !onGridInt t.tx t.ty then none
  else some ((s.plot (s.phys t.tx t.ty)).ring t.index).rsz

/-- Channel checks at one plot (R229, R243, R352): every refusal, with its code and entry. -/
def State.plotChanBad (s : State) (a : Atlas) (q : XY) : List Refuse :=
  let own := s.regs.device
  let cache := a.cacheAt q.x q.y
  let first : Ref := ((a.ents 4).head?.map (·.1)).getD (63, 0)
  let valid := (List.range 8).filter (sheetValid cache)
  let readers := (valid.flatMap (sheetReaders cache)).eraseDups
  let sends := valid.flatMap (sheetSends cache)
  let rings := valid.flatMap fun s => (sheetLegalOps cache s).flatMap opRings
  let releases := valid.flatMap fun s => (List.range (sheetHeader cache s).opCount).map (sheetOp cache s)
  let eight (r : Ref) : Refuse := (8, r.1, r.2)
  let sendBad := sends.filterMap fun cl =>
    match a.chanAt own q.x q.y cl.1 with
    | none => some (eight first)
    | some c => if !c.chan.enable || lengthBad c.chan.kind c.rsz cl.2 then some (eight c.ref) else none
  let ringBad := rings.filterMap fun n =>
    match a.ringAt q.x q.y n with
    | none => some (eight first)
    | some (ref, v) => if v.testBit 22 then none else some (eight ref)
  let zeroBad := releases.filterMap fun w =>
    if (opClass w = 6 ∨ opClass w = 5) ∧ opCode w = 0 ∧ spLen (opParam w) = 0 then some (eight first) else none
  let readBad := readers.filterMap fun r => if (a.writerAt own q.x q.y r).isNone then some (eight first) else none
  let chans := (List.range 16).filterMap fun n => (a.chanAt own q.x q.y n).map fun c => (n, c)
  let sizeBad := chans.filterMap fun nc =>
    let t := nc.2.chan
    match (if t.kind = 1 ∧ t.dev = own then s.ringSize a t else none) with
    | some rsz => if rsz = nc.2.rsz then none else some (eight nc.2.ref)
    | none => none
  let chanBad := chans.filterMap fun nc =>
    let (n, c) := nc
    let t := c.chan
    let inside := t.enable && decide (t.kind ≤ 1) && t.dev == own && a.list.any fun p => p.1.has t.tx t.ty
    let named := match a.writerAt own t.tx t.ty c.reader with
      | some (_, .channel d wx wy wc _, _) => d == own && wx == q.x && wy == q.y && wc == n
      | _ => false
    if inside && !named then some (eight c.ref) else none
  let writerBad := (List.range 24).filterMap fun r =>
    match a.writerAt own q.x q.y r with
    | some (ref, .channel _ wx wy wc true, _) =>
      (match a.chanAt own wx wy wc with
       | none => some (eight ref)
       | some c =>
         let t := c.chan
         if t.enable && decide (t.kind ≤ 1) && t.dev == own && t.tx == q.x && t.ty == q.y && c.reader == r then none else some (eight ref))
    | _ => none
  let laps :=
    let gs := (List.range 8).filterMap fun n => (a.ringAt q.x q.y n).filter fun rv => rv.2.testBit 22
    (List.range gs.length).filterMap fun i =>
      match gs[i]? with
      | none => none
      | some (ref, v) =>
        let g := ringCfg v
        if (gs.take i).any fun hv =>
            let h := ringCfg hv.2
            decide (g.base < h.base + 32 * ringUnits h.rsz ∧ h.base < g.base + 32 * ringUnits g.rsz) then some (9, ref.1, ref.2) else none
  sendBad ++ ringBad ++ zeroBad ++ readBad ++ sizeBad ++ chanBad ++ writerBad ++ laps

/-- Port streams outside the bound ranges, of an enabled channel or not, and inside channels to a field that is unreachable (code 12). -/
def State.plotRouteBad (s : State) (a : Atlas) (q : XY) : List Refuse :=
  let own := s.regs.device
  let bs := a.bindings
  let ins := (List.range 24).filterMap fun r =>
    match a.writerAt own q.x q.y r with
    | some (ref, .stream p n, _) => if Binding.holds bs p n false then none else some (12, ref.1, ref.2)
    | _ => none
  let outs := (List.range 16).filterMap fun n =>
    match a.chanAt own q.x q.y n with
    | none => none
    | some c =>
      let t := c.chan
      if t.kind = 2 then (if Binding.holds bs t.index t.rtail true then none else some (12, c.ref.1, c.ref.2))
      else if t.enable ∧ t.dev = own ∧ (a.list.any fun p => p.1.has t.tx t.ty) = true
          ∧ (s.routeOf (fieldOf q.x q.y) (fieldOf t.tx t.ty)).isNone = true then some (12, c.ref.1, c.ref.2)
      else none
  ins ++ outs

/-! ## The whole check (R360, R369) -/

/-- How a check is made: the tree base, whether void plots pass, the parcel that a swap replaces, and whether a held parcel of this atlas is
taken over (R368). -/
structure CheckMode where
  base : Nat
  void : Bool
  swap : Option Parcel
  keep : Bool
  deriving DecidableEq, Repr

/-- Tree numbers that a load may not use (R258, R369): of the other parcels, and held ones that it does not take over. -/
def State.takenTrees (s : State) (a : Atlas) (m : CheckMode) (others : List Parcel) : List Nat :=
  others.flatMap (·.trees) ++ (s.held.filter fun h => !(m.keep && h.digest == sha512 a.signed)).flatMap (·.spans)

/-- The refusals of one section's entries, each by itself. -/
def State.sectionBad (s : State) (a : Atlas) (m : CheckMode) (t : Sect) : List Refuse :=
  let others := s.parcels.filter fun p => match m.swap with | some w => p.num != w.num | none => true
  let self := match m.swap with | some w => w.num | none => 0
  let each (f : Nat → List Byte → Option Nat) : List Refuse := (t.ents.zipIdx).filterMap fun ei => (f ei.2 ei.1).map fun code => (code, t.idx, ei.2)
  match t.typ with
  | 1 => each fun _ _ => parcelBad a (others.flatMap (·.windows))
  | 2 =>
    let rects := t.ents.map entRect
    (if t.ents.isEmpty then [(4, t.idx, 0)] else []) ++ each fun i e =>
      if decide (64 ≤ i) || listBad a e || (rects.take i).any (entRect e).meets then some 4
      else if (entRect e).plots.any (s.unavailable self m.void) then some 5
      else none
  | 3 =>
    let entry := ((a.sects.find? fun u => u.typ == 3).map (·.idx)) == some t.idx && a.list.any fun p => p.1.plots.any fun q => !sheetValid (a.cacheAt q.x q.y) p.2
    (each fun i e => sheetEntBad a (t.idx, i) e) ++ (if entry then [(6, t.idx, 0)] else [])
  | 4 => each fun i e => chanEntBad a s.regs.device (t.idx, i) e
  | 5 =>
    let ns := a.nodes m.base fun q => s.phys q.x q.y
    (each fun _ e => if treeEntBad a e then some 10 else none)
      ++ (treesBad s.regs.device ns (s.takenTrees a m others) a.plots.length (a.drainTree m.base) (t.idx, 0)).map fun r => (10, r.1, r.2)
  | 6 => each fun _ e => if routeBad a (others.flatMap (·.bindings)) e then some 12 else none
  | 7 => each fun _ e => if paceBad a e then some 13 else none
  | 8 => each fun i e => if segBad a (m.swap.map fun w => (w.swapBase, w.swapLen)) i e then some 14 else none
  | _ => []

/-- R369: where B's plot list first differs from P's; a list that is only too short has no entry to name (log entry 26). -/
def Atlas.swapBad (a : Atlas) (w : Parcel) : List Refuse :=
  ((a.ents 2).zipIdx).filterMap (fun ei => if w.list[ei.2]? = some (entRect ei.1.2, fld ei.1.2 8 1 % 8) then none else some (16, ei.1.1.1, ei.1.1.2))
    ++ (if a.list.length < w.list.length then [(16, 63, 0)] else [])

/-- The refusal that is found first: the lowest section and entry, and of one entry's the first in the list. -/
def firstRefusal (l : List Refuse) : Option Refuse :=
  l.foldl (fun o r => match o with
    | none => some r
    | some b => if r.2.1 < b.2.1 ∨ (r.2.1 = b.2.1 ∧ r.2.2 < b.2.2) then some r else o) none

/-- R343, R360 code 3: an atlas for another device, or no device ID written since the last Cold reset. -/
def State.deviceBad (s : State) (bytes : List Byte) : Bool :=
  let d := fld bytes 0x28 2
  (!d.testBit 15 && d % 1024 != s.regs.device) || !s.regs.written

/-- Every check of R360 on an atlas in host memory: the atlas, or its first refusal. The header with its device comes first, then the table
and the signature, then the sections. -/
def State.checkAtlas (s : State) (bytes : List Byte) (len : Nat) (m : CheckMode) : Except Refuse Atlas :=
  if headBad bytes len then .error (1, 63, 0)
  else if s.deviceBad bytes then .error (3, 63, 0)
  else match Atlas.read bytes len with
    | .error r => .error r
    | .ok a =>
      if !s.accepts a then .error (2, 63, 0)
      else match firstRefusal (a.sects.flatMap (s.sectionBad a m) ++ a.plots.flatMap (s.plotChanBad a) ++ a.plots.flatMap (s.plotRouteBad a)
          ++ m.swap.elim [] a.swapBad) with
        | some r => .error r
        | none => .ok a

def Atlas.digest (a : Atlas) : List Byte := sha512 a.signed

end Sys2Proof.Machine
end

