-- ==== Sys2Proof/Machine/Parcels.lean ====
section
/-! DEFINITION. Loading, running, releasing, restoring and swapping parcels, image delivery, reprojection (spec/10 R357-R373, spec/05 R178,
R179, R208, R213, R214, spec/06 R222, R223, spec/07 R259, R261, spec/08 R290, spec/15 R497). -/

namespace Sys2Proof.Machine

/-! ## Step 5 of a load at one plot (R361, R363, 05 R179) -/

/-- The reader's credit still owed to an outside writer at load (06 R223); of a ring that is not enabled none is (DESIGN CHOICE, log entry 97). -/
def owedAtLoad (w : Option Writer) (units : Nat) : Nat :=
  match w with
  | some w => if w.inside then 0 else units
  | none => 0

/-- What the load gives a plot; `clear` says that its memory is cleared. Beacons (07 R244) and
sheet-local registers go to zero (log entry 31); registers that no rule sets at a load stay as they are. -/
def Atlas.place (a : Atlas) (own base num : Nat) (forRestore clear : Bool) (q : XY) (p : Plot) : Plot :=
  let cache := a.cacheAt q.x q.y
  let store := cleanData (cellsRead cache 0 0x2000)
  let mem := if clear then p.mem.clear 0 0x32000 else p.mem
  let writers := (List.range 24).map fun r => (a.writerAt own q.x q.y r).map fun w => w.2.1
  let rings := (List.range 8).map fun n => match a.ringAt q.x q.y n with
    | some (_, v) => ringCfg v
    | none => Ring.reset
  let seq := Seq.reset
  let entry := ((a.list.find? fun e => e.1.has q.x q.y).map (·.2)).getD 0
  { p with
    st := .idle, parcel := num, gate := false, swapStaged := false, kept := false, keptDigest := [], forRestore := forRestore, restored := false
    restoredEnded := false, nanTrap := (fld a.parcelEnt 1 1).testBit 0
    seq := { seq with cur := entry, cache := cache, sel := p.seq.sel, halted := p.seq.halted }
    queues := (List.range 16).map fun n => { Queue.reset with owed := owedAtLoad ((writers[n]?).getD none) 16 }
    rings := (rings.zipIdx).map fun gn => { gn.1 with owed := owedAtLoad ((writers[16 + gn.2]?).getD none) (if gn.1.enable then ringUnits gn.1.rsz else 0) }
    chans := (List.range 16).map fun c => match a.chanAt own q.x q.y c with
      | some v => v.chan
      | none => Channel.reset
    writers := writers
    slots := (List.range 16).map fun k => match a.slotAt base q.x q.y k with
      | some (_, v) => { v with held := (if (p.slot k).tree = v.tree then (p.slot k).held else []) }
      | none => Slot.reset
    group := Group.reset, tile0 := List.replicate 64 0, tile1 := List.replicate 64 0, loc := List.replicate 64 0
    beacons := List.replicate 32 0
    edge := { EdgePort.reset with windows := a.windows, nextTracker := p.edge.nextTracker }
    watch := Watch.reset, pace := a.pace
    mem := (mem.write 0x32000 store).mem }

/-- Streams bound at the far ends (11 R400): readers by their writers, channels by their targets. -/
def Atlas.inEnds (a : Atlas) (own : Nat) : List StreamEnd :=
  a.plots.flatMap fun q => (List.range 24).filterMap fun r =>
    match a.writerAt own q.x q.y r with
    | some (_, .stream p n, _) => some ⟨p, n, q.x, q.y, r⟩
    | _ => none

def Atlas.outEnds (a : Atlas) (own : Nat) : List StreamEnd :=
  a.plots.flatMap fun q => (List.range 16).filterMap fun c =>
    match a.chanAt own q.x q.y c with
    | some v => if v.chan.enable && v.chan.kind == 2 then some ⟨v.chan.index, v.chan.rtail, q.x, q.y, c⟩ else none
    | none => none

/-- The trees of an atlas after renumbering. -/
def Atlas.trees (a : Atlas) (base : Nat) : List Nat :=
  ((a.ents 5).map fun e => bitsOf (treeWord base e.2).toNat 11 0).eraseDups
def Atlas.spans (a : Atlas) : List Nat :=
  ((a.ents 5).filterMap fun e =>
    let w := treeWord 0 e.2
    if w.getLsbD 22 then some (w.toNat % 4096) else none).eraseDups

/-- The parcel that a load or swap makes. -/
def Atlas.parcel (a : Atlas) (own base num : Nat) (segs : List ImageSeg) (cmd : Option Cmd) (forRestore : Bool) : Parcel :=
  { num := num, digest := a.digest, keySlot := (if a.sig.all (· == 0) then 255 else a.keyIndex), list := a.list, stallLog := fld a.parcelEnt 0 1, drainTree := a.drainTree base
    windows := a.windows, swapBase := a.swapBase, swapLen := a.swapLen, trees := a.trees base, spans := a.spans
    bindings := a.bindings, inStreams := a.inEnds own, outStreams := a.outEnds own, segs := segs, imagesDone := segs.isEmpty
    loadCmd := cmd, forRestore := forRestore, phase := .loaded, ran := false, drain := none, lastOutcome := none, fault := none
    faultArea := none, quiet := 0, ends := 0, endPosted := false, uncommitted := false, expired := false, spent := false, swap := none }

/-- Steps 5 and 6: every plot written, then LOADED. -/
def State.placeAll (s : State) (a : Atlas) (base num : Nat) (forRestore clear : Bool) : State :=
  let digest := a.digest
  a.plots.foldl (fun (s : State) q =>
    let ph := s.phys q.x q.y
    let p := s.plot ph
    let kept := p.kept && p.keptDigest == digest
    s.setPlot ph { a.place s.regs.device base num forRestore (clear && !kept) q p with st := .loaded }) s

/-! ## Reprojection (R372) -/

/-- The 26 physical plots of a reach. -/
def reachPlots (r : Nat) : List Nat := (List.range 26).map fun i => 1248 * (r / 48) + 26 * (r % 48) + i

/-- Whether a loaded parcel holds a logical plot of a reach (01 R25). -/
def State.reachLoaded (s : State) (r : Nat) : Bool :=
  s.parcels.any fun p => p.list.any fun e =>
    decide (e.1.y0 ≤ r / 48 ∧ r / 48 ≤ e.1.y1 ∧ e.1.x0 ≤ 25 * (r % 48) + 24 ∧ 25 * (r % 48) ≤ e.1.x1)

/-- Whether a physical plot of a reach is in TEST. -/
def State.reachTested (s : State) (r : Nat) : Bool := (reachPlots r).any fun ph => (s.plot ph).st == .test

/-- What R372 does with a reach: skip it, or the projection value it gets. -/
def State.reachPlan (s : State) (r : Nat) : Option Nat :=
  if s.reachLoaded r || s.reachTested r then none
  else match ((reachPlots r).zipIdx).find? fun pi => s.isDead pi.1 with
    | some (_, i) => some i
    | none => some (cellGet 25 s.nv.survey.proj r)

/-- Before the checks of a load and before a reprojection, patrol tests on the plots concerned are abandoned: each plot is IDLE again, and
its test block stays (13 R448). -/
def State.abandonPatrol (s : State) (phys : List Nat) : State :=
  let gone := s.svc.testing.filter fun t => t.2 && phys.contains t.1
  let s := gone.foldl (fun (s : State) t =>
    let p := s.plot t.1
    if p.st == .test then s.setPlot t.1 { p with st := .idle } else s) s
  { s with svc := { s.svc with testing := s.svc.testing.filter fun t => !gone.contains t } }

/-- Reproject reaches: the state, how many changed, how many were skipped. The change is one journalled write and one step of the gazetteer
version (R373). -/
def State.reproject (s : State) (rs : List Nat) : State × Nat × Nat :=
  let plans := rs.map fun r => (r, s.reachPlan r)
  let changed := plans.filterMap fun rp => match rp.2 with
    | some q => if q = cellGet 25 s.nv.survey.proj rp.1 then none else some (rp.1, q)
    | none => none
  let skipped := (plans.filter fun rp => rp.2.isNone).length
  if changed.isEmpty then (s, 0, skipped)
  else
    let s := s.survey fun v => ({ v with proj := changed.foldl (fun (l : Projection) (rq : Nat × Nat) => cellSet 25 rq.1 rq.2 l) v.proj } : Survey).bump
    let s := (changed.flatMap fun rq => reachPlots rq.1).foldl (fun (s : State) ph =>
      s.setPlot ph { s.plot ph with kept := false, keptDigest := [] }) s
    (s, changed.length, skipped)

/-- The reaches of a rectangle of logical plots. -/
def Rect.reaches (r : Rect) : List Nat :=
  (List.range (r.y1 + 1 - r.y0)).flatMap fun j => (List.range (r.x1 / 25 + 1 - r.x0 / 25)).map fun i => (r.y0 + j) * 48 + r.x0 / 25 + i

/-- 10 R372, R373, 13 R448, 15 R497: DEFERRED reports that a reach was skipped for a plot in TEST (log entry 85). -/
def execReproject (s : State) : Host.Outcome State Fault Refusal :=
  match s.turn 0x0A with
  | none => .next s
  | some (c, s) =>
    if !s.clk.ready then .next (s.complete c stNotReady [])
    else if !rectOk (c.w 0) then .next (s.complete c stBadCommand [])
    else
      let rs := (rectOf (c.w 0)).reaches
      let s := s.abandonPatrol (rs.flatMap reachPlots)
      let deferred := rs.any fun r => !s.reachLoaded r && s.reachTested r
      let (s, changed, skipped) := s.reproject rs
      .next (s.complete c (if deferred then stDeferred else stOk) [changed, skipped, s.nv.survey.version])

/-! ## Load (R361, R363, R368) -/

/-- The number a load gets: the held one that it takes over, or the lowest that is neither loaded nor held. -/
def State.freeNumber (s : State) : Option Nat :=
  ((List.range 255).map (· + 1)).find? fun n => (s.parcel n).isNone && !s.held.any fun h => h.num == n

/-- Ports that an atlas binds and that are not ACTIVE (R355). -/
def State.portsDown (s : State) (bs : List Binding) : Nat :=
  (List.range 16).foldl (fun n p => n + bit ((bs.any fun b => b.port == p) && (s.port p).st != .active) p) 0

def refusalWord (r : Refuse) : Nat := r.1 + r.2.1 * 2 ^ 8 + r.2.2 * 2 ^ 16

/-- Reaches of the void plots of an atlas. -/
def State.voidReaches (s : State) (a : Atlas) : List Nat :=
  ((a.plots.filter fun q => s.isDead (s.phys q.x q.y)).map fun q => reachOf q.x q.y).eraseDups

/-- Plots that a load concerns: its own, and those of the reaches that its void plots may have repaired. -/
def State.concerned (s : State) (a : Atlas) : List Nat :=
  (a.plots.map fun q => s.phys q.x q.y) ++ (s.voidReaches a).flatMap reachPlots

/-- The number that a checked load gets: the held one that it takes over (R368), else a free one. -/
def State.loadNumber (s : State) (a : Atlas) (c : Cmd) : Option Nat :=
  let digest := a.digest
  match if c.flag 1 48 || c.flag 1 50 then s.held.find? fun h => h.digest == digest else none with
  | some h => some h.num
  | none => s.freeNumber

/-- The first plot-list entry with a plot that was not kept for this atlas: it refuses a load with NO_IMAGES (R363; log entry 27). -/
def State.notKept (s : State) (a : Atlas) (c : Cmd) : Option (Ref × List Byte) :=
  let digest := a.digest
  if !c.flag 1 48 || c.flag 1 50 then none
  else (a.ents 2).find? fun e => (entRect e.2).plots.any fun q =>
    let p := s.plot (s.phys q.x q.y)
    !(p.kept && p.keptDigest == digest)

/-- Load a checked atlas under its number (R361 steps 5 to 7). -/
def State.loadAtlas (s : State) (a : Atlas) (c : Cmd) (num : Nat) : State :=
  let forRestore := c.flag 1 50
  let base := c.bits 1 43 32
  let s := { s with held := s.held.filter fun h => h.num != num }
  let segs := if c.flag 1 48 || forRestore then [] else a.segs
  let s := s.placeAll a base num forRestore true
  let p := a.parcel s.regs.device base num segs (if segs.isEmpty then none else some c) forRestore
  let s := { s with parcels := s.parcels ++ [p] }
  let s := s.complete c stOk [num + s.nv.survey.version % 2 ^ 32 * 2 ^ 8 + s.portsDown p.bindings * 2 ^ 40]
  if segs.isEmpty then s.second c stOk [] else s

/-- 10 R360, R361, R363, R368, R372, 15 R488, R497. An atlas without a byte stands for a host read that has not completed (log entry 8). Every refusal comes before
a reach is repaired; the steps of one load are one event (log entry 102). -/
def execLoad (atlas : List Byte) (s : State) : Host.Outcome State Fault Refusal :=
  match s.turn 0x02 with
  | none => .next s
  | some (c, s) =>
    if !s.clk.ready then .next (s.complete c stNotReady [])
    else if c.w 0 % 64 ≠ 0 then .next (s.complete c stBadCommand [])
    else if atlas.isEmpty then .next (s.complete c stHostRead [])
    else
      let repro := c.flag 1 49
      let base := c.bits 1 43 32
      let s := match Atlas.read atlas (c.bits 1 31 0) with
        | .ok a => s.abandonPatrol (s.concerned a)
        | .error _ => s
      match s.checkAtlas atlas (c.bits 1 31 0) ⟨base, repro, none, c.flag 1 48 || c.flag 1 50⟩ with
      | .error r => .next (s.complete c stRefused [refusalWord r])
      | .ok a =>
        match s.loadNumber a c, s.notKept a c with
        | none, _ => .next (s.complete c stFailed [])
        | some _, some e => .next (s.complete c stRefused [refusalWord (16, e.1.1, e.1.2)])
        | some num, none =>
          let s := if repro then (s.reproject (s.voidReaches a)).1 else s
          match (a.ents 2).find? fun e => (entRect e.2).plots.any (s.unavailable 0 false) with
          | some e => .next (s.complete c stRefused [refusalWord (5, e.1.1, e.1.2)])
          | none => .next (s.loadAtlas a c num)

/-! ## Run, reopen, release, drain (R364-R368, 05 R202, R208) -/

/-- The parcel a command names, and what it answers when there is none. -/
def State.withParcel (s : State) (c : Cmd) (f : State → Parcel → State) : State :=
  match s.parcel (c.bits 0 7 0) with
  | none => s.complete c stNoParcel []
  | some p => f s p

/-- 10 R361 step 8, R365, 07 R261, 06 R223. -/
def execRun (s : State) : Host.Outcome State Fault Refusal :=
  match s.turn 0x03 with
  | none => .next s
  | some (c, s) =>
    if !s.clk.ready then .next (s.complete c stNotReady [])
    else .next (s.withParcel c fun s p =>
      if !p.imagesDone then s.complete c stImagesPending []
      else if p.phase != .loaded || p.fault.isSome then s.complete c stFailed []
      else (s.openParcel p).complete c stOk [])

/-- 05 R208, 10 R365: only after a drain that finished by quiescence with no faulted plot, and after no drain that ended otherwise. -/
def execReopen (s : State) : Host.Outcome State Fault Refusal :=
  match s.turn 0x06 with
  | none => .next s
  | some (c, s) =>
    .next (s.withParcel c fun s p =>
      if p.phase != .drained || p.lastOutcome != some 0 || p.fault.isSome || p.spent || s.countFaulted p != 0 then s.complete c stFailed []
      else (s.openParcel p).complete c stOk [])

/-- 05 R202, R203, 10 R364, 16 R528; BUSY for a second order. A scan that would touch an absent edge address fails, with no drain (09 R316;
log entry 83). -/
def execDrain (s : State) : Host.Outcome State Fault Refusal :=
  match s.turn 0x05 with
  | none => .next s
  | some (c, s) =>
    .next (s.withParcel c fun s p =>
      if p.drain.isSome then s.complete c stBusy []
      else if c.flag 0 8 ∧ c.w 1 % 4096 ≠ 0 then s.complete c stBadCommand []
      else if c.flag 0 8 && rootBad (c.w 1) (p.plots.length * recordSize (c.flag 0 9)) then s.complete c stFailed []
      else s.orderDrain p 0 (c.flag 0 8) (c.flag 0 9) (c.w 1) (p.plots.length * recordSize (c.flag 0 9)) (some c))

/-- A plot leaves its parcel (R367): its readers are reset readers, its slots free but for those of spanning trees that are held. -/
def Plot.leaveParcel (p : Plot) (keepMemory keepTrees : Bool) (digest : List Byte) : Plot :=
  let seq := Seq.reset
  { p with
    st := if p.st == .fenced then .fenced else .idle
    parcel := 0, gate := false, swapStaged := false, kept := keepMemory, keptDigest := if keepMemory then digest else []
    forRestore := false, restoredEnded := false
    seq := { p.seq with ops := [], firings := [], target := none, switching := none, gen := none, ended := seq.ended }
    slots := p.slots.map fun v => if keepTrees && v.spans then v.setActive false else Slot.reset
    edge := { p.edge with windows := [], trackers := [], sent := List.replicate 24 0, asks := List.replicate 24 false }
    watch := Watch.reset }

/-- Release a parcel (R367, R368). -/
def State.release (s : State) (p : Parcel) (keepMemory keepTrees : Bool) : State :=
  let s := s.refuseSwap p.num
  let s := if keepTrees then (if p.spans.isEmpty then s else { s with held := s.held ++ [⟨p.num, p.digest, p.spans⟩] })
    else s.noticeLost p.spans
  let s := p.plots.foldl (fun (s : State) q =>
    let ph := s.phys q.x q.y
    s.setPlot ph ((s.plot ph).leaveParcel keepMemory keepTrees p.digest)) s
  { s with parcels := s.parcels.filter fun q => q.num != p.num }

/-- A drain that a release finds without its report (log entry 86): one not decided is decided then (05 R209). -/
def Drain.atRelease (d : Drain) (now : Nat) : Drain :=
  if d.outcome.isSome then { d with settling := false } else { d with outcome := some 0, cycles := now - d.start, settling := false }

/-- 10 R364, R367, R368, 07 R259. Where no plot runs or drains but a drain of the parcel has not reported yet, it ends and reports first (log
entry 86), and the release waits for Theodolite as its report does (13 R457). -/
def execRelease (u : State) : Host.Outcome State Fault Refusal :=
  match u.turn 0x04 with
  | none => .next u
  | some (c, s) =>
    let n := c.bits 0 7 0
    match s.parcel n with
    | some p =>
      if (s.parcelPlots p).any fun qp => qp.2.st == .running || qp.2.st == .draining then .next (s.complete c stParcelRunning [])
      else if p.drain.any fun d => s.endWaits p d then .next u
      else
        let s := match p.drain with
          | some d => (s.endPlots p).finishDrain p (d.atRelease s.netCycles)
          | none => s
        .next ((s.release p (c.flag 0 8) (c.flag 0 9)).complete c stOk [])
    | none =>
      match s.held.find? fun h => h.num == n with
      | none => .next (s.complete c stNoParcel [])
      | some h =>
        if c.flag 0 9 then .next (s.complete c stNoParcel [])
        else
          let s := { s with held := s.held.filter fun g => g.num != n }
          let s := s.mapPlots fun p =>
            if p.parcel = 0 then { p with slots := p.slots.map fun v => if v.spans && h.spans.contains v.tree then Slot.reset else v } else p
          .next ((s.noticeLost h.spans).complete c stOk [])

/-! ## Restore (05 R213, R214) -/

/-- One plot takes its record or refuses it. -/
def State.restorePlot (s : State) (p : Parcel) (q : XY) (rec : List Byte) : State × Option Nat :=
  let ph := s.phys q.x q.y
  let v := s.plot ph
  match v.refusesRecord (s.view ph) p.digest rec with
  | some n => (s, some n)
  | none => (s.setPlot ph (v.restore rec), none)

def State.restoreGo (s : State) (p : Parcel) (addr size done : Nat) (bad : Option (XY × Nat)) : List XY → State × Nat × Option (XY × Nat)
  | [] => (s, done, bad)
  | q :: rest =>
    let (s, d) := s.rootRead addr size 64
    let b := d.map (·.1)
    match s.restorePlot p q (b ++ zeros (size - b.length)) with
    | (s, some n) => s.restoreGo p (addr + size) size done (bad.or (some (q, n))) rest
    | (s, none) => s.restoreGo p (addr + size) size (done + 1) bad rest

/-- 05 R213, R214, 15 R497: every plot takes or refuses its record; the records lie one after another in the size that the first one's
WITH_MEMORY gives. -/
def execRestore (s : State) : Host.Outcome State Fault Refusal :=
  match s.turn 0x07 with
  | none => .next s
  | some (c, s) =>
    .next (s.withParcel c fun s p =>
      if p.phase != .loaded || p.ran || p.fault.isSome || rootBad (c.w 1) (p.plots.length * recordSize false) then s.complete c stFailed []
      else
        let (s, h) := s.rootRead (c.w 1) 16 2
        let withMemory := (leNat ((h.map (·.1)).drop 8)).testBit 2
        if rootBad (c.w 1) (p.plots.length * recordSize withMemory) then s.complete c stFailed []
        else
        let (s, done, bad) := s.restoreGo p (c.w 1) (recordSize withMemory) 0 none p.plots
        s.complete c stOk [done, match bad with
          | none => 0
          | some (q, n) => s.plotAddr q.x q.y + n])

/-! ## Swap (R369-R371) -/

/-- 10 R360, R369. -/
def execSwap (atlas : List Byte) (s : State) : Host.Outcome State Fault Refusal :=
  match s.turn 0x08 with
  | none => .next s
  | some (c, s) =>
    if !s.clk.ready then .next (s.complete c stNotReady [])
    else .next (s.withParcel c fun s p =>
      if c.w 1 % 64 ≠ 0 then s.complete c stBadCommand []
      else if atlas.isEmpty then s.complete c stHostRead []
      else if p.phase != .running || p.swap.isSome || p.fault.isSome || p.drain.isSome then s.complete c stRefused [refusalWord (16, 63, 0)]
      else
        let base := c.bits 2 43 32
        match s.checkAtlas atlas (c.bits 2 31 0) ⟨base, false, some p, false⟩ with
        | .error r => s.complete c stRefused [refusalWord r]
        | .ok a =>
          let w : Swap := { atlas := atlas, base := base, opens := c.flag 0 8, cmd := c, segs := a.segs }
          let s := s.setParcel { p with swap := some w }
          let s := s.mapParcel p fun v => { v with swapStaged := true }
          s.complete c stOk [])

/-- 10 R371: the host cancels a staged swap. -/
def execSwapCancel (s : State) : Host.Outcome State Fault Refusal :=
  match s.turn 0x09 with
  | none => .next s
  | some (c, s) =>
    .next (s.withParcel c fun s p => if p.swap.isNone then s.complete c stFailed [] else (s.refuseSwap p.num).complete c stOk [])

/-- B's contents go into every plot, or the swap fails (R370, R371). -/
def State.takeSwap (s : State) (p : Parcel) (w : Swap) (a : Atlas) : State :=
  match p.plots.find? fun q => !s.alive (s.phys q.x q.y) with
  | some q =>
    let s := s.dropSwap p
    (s.faultParcelAt 2 q.x q.y).second w.cmd stSwapFailed []
  | none =>
    let s := s.noticeLost p.spans
    let s := s.placeAll a w.base p.num false false
    let b := a.parcel s.regs.device w.base p.num [] none false
    let s := s.setParcel { b with faultArea := p.faultArea }
    let s := if w.opens then s.openParcel { b with faultArea := p.faultArea } else s
    s.second w.cmd stOk []

/-- 10 R370, R371: after P has ended. -/
def execSwapTake (parcel : Nat) (s : State) : Host.Outcome State Fault Refusal :=
  match s.parcel parcel with
  | none => .next s
  | some p =>
    match p.swap with
    | none => .next s
    | some w =>
      if !p.endPosted then .next s
      else if p.uncommitted then .next (s.refuseSwap p.num)
      else if !w.segs.all (·.passed) then .next s
      else match Atlas.read w.atlas w.atlas.length with
        | .error _ => .next (s.refuseSwap p.num)
        | .ok a => .next (s.takeSwap p w a)

/-- 10 R361 step 7: the second completion of a load. -/
def execImagesDone (parcel : Nat) (s : State) : Host.Outcome State Fault Refusal :=
  match s.parcel parcel with
  | none => .next s
  | some p =>
    match p.loadCmd with
    | none => .next s
    | some c =>
      if !p.segs.all (·.passed) then .next s
      else .next ((s.setParcel { p with imagesDone := true, loadCmd := none }).second c stOk [])

/-- 13 R438, 15 R497: the region that a fault drain scans to; one that runs past the present addresses is none (09 R316; log entry 83). -/
def execFaultArea (s : State) : Host.Outcome State Fault Refusal :=
  match s.turn 0x0B with
  | none => .next s
  | some (c, s) =>
    .next (s.withParcel c fun s p =>
      if c.w 1 % 4096 ≠ 0 ∨ edgePresent (c.w 1) = false then s.complete c stBadCommand []
      else if rootBad (c.w 1) (c.w 2) then s.complete c stFailed []
      else (s.setParcel { p with faultArea := some (c.w 1, c.w 2) }).complete c stOk [])

/-! ## Images (R358, 11 R401) -/

/-- Pieces of bytes that reach position `pos` of a segment, each within one 64-byte line of one plot. -/
def imagePieces (g : ImageSeg) (pos : Nat) (d : Data) : Nat → List (XY × Nat × Data)
  | 0 => []
  | n + 1 =>
    if d.isEmpty then []
    else
      let room := 64 - pos % 64
      let w := g.rect.x1 + 1 - g.rect.x0
      let i := pos / g.len
      (⟨g.rect.x0 + i % w, g.rect.y0 + i / w⟩, g.off + pos % g.len, d.take room) :: imagePieces g (pos + room) (d.drop room) n

def ImageSeg.total (g : ImageSeg) : Nat := g.rect.plots.length * g.len
def ImageSeg.busy (g : ImageSeg) : Bool := !g.passed && !g.got.isEmpty

/-- Open segments of a port with their parcels; a swap's count as well. -/
def State.portSegs (s : State) (port : Nat) : List (Nat × Bool × Nat × ImageSeg) :=
  s.parcels.flatMap fun p =>
    let own := (p.segs.zipIdx).map fun gi => (p.num, false, gi.2, gi.1)
    let sw := match p.swap with
      | some w => (w.segs.zipIdx).map fun gi => (p.num, true, gi.2, gi.1)
      | none => []
    (own ++ sw).filter fun e => e.2.2.2.port == port && !e.2.2.2.passed

def State.setSeg (s : State) (num : Nat) (swap : Bool) (i : Nat) (g : ImageSeg) : State :=
  match s.parcel num with
  | none => s
  | some p =>
    if swap then s.setParcel { p with swap := p.swap.map fun w => { w with segs := w.segs.set i g } }
    else s.setParcel { p with segs := p.segs.set i g }

/-- Image credit goes back to the gateway (11 R401). -/
def State.imageCredit (s : State) (port n : Nat) : State := if n = 0 then s else s.oweStream port 0xFFFF n

/-- Bytes for one segment: written to the plots as image writes, hashed, the digest compared at the last byte (R358). -/
def State.imageBytes (s : State) (port : Nat) (d : Data) (e : Nat × Bool × Nat × ImageSeg) : State :=
  let (num, swap, i, g) := e
  let take := d.take (g.total - g.got.length)
  let s := if take.length < d.length then s.countPort port 4 1 else s
  let s := (imagePieces g g.got.length take (take.length / 64 + 2)).foldl (fun (s : State) x =>
    s.putPacket ⟨.port port, .plot x.1.x x.1.y, 1, .image num x.1.x x.1.y x.2.1 x.2.2⟩) s
  let got := g.got ++ take.map (·.1)
  if got.length < g.total then s.setSeg num swap i { g with got := got }
  else if sha512 got = g.digest then s.setSeg num swap i { g with got := [], passed := true }
  else (s.setSeg num swap i { g with got := [] }).event 0x02 [num, i] none

/-- Whether a kind 8 packet can be hashed now: its segment is in progress, or fewer than 256 are, or it has no open segment. -/
def State.imageReady (s : State) (port : Nat) (k : LinkPkt) : Bool :=
  match (s.portSegs port).find? fun e => e.2.2.2.stream == k.stream with
  | none => true
  | some e => e.2.2.2.busy || decide (((s.portSegs port).filter fun e => e.2.2.2.busy).length < 256)

/-- 11 R401, 10 R358: the next image packet that can be hashed; one that cannot goes to the image buffer. -/
def execImageData (port : Nat) (s : State) : Host.Outcome State Fault Refusal :=
  let use (s : State) (k : LinkPkt) : State :=
    let s := match (s.portSegs port).find? fun e => e.2.2.2.stream == k.stream with
      | none => s.countPort port 4 1
      | some e => s.imageBytes port k.data e
    s.imageCredit port ((k.data.length + 31) / 32)
  let v := s.port port
  match v.imageHeld.find? (s.imageReady port) with
  | some k =>
    let s := s.setPort port { v with imageHeld := v.imageHeld.erase k, imageUsed := v.imageUsed - (k.data.length + 31) / 32 }
    .next (use s k)
  | none =>
    match s.takeRecv port fun k => k.kind == 8 with
    | none => .next s
    | some (k, s) =>
      if s.imageReady port k then .next (use s k)
      else
        let v := s.port port
        .next (s.setPort port { v with imageHeld := v.imageHeld ++ [k], imageUsed := v.imageUsed + (k.data.length + 31) / 32 })

end Sys2Proof.Machine
end

