-- ==== Sys2Proof/Machine/Links.lean ====
section
/-! DEFINITION. The Wenga ports as commands: training, flits, the transit switch, streams (spec/11_wenga_links.md R375-R402). The mechanics stand
in LinkOps.lean. -/

namespace Sys2Proof.Machine

/-! ## Training (R391-R396) -/

/-- Whether some aligned group of four lanes sees signal. -/
def groupOfFour (lanes : W16) : Bool := (List.range 4).any fun g => (List.range 4).all fun i => lanes.getLsbD (4 * g + i)

/-- R391, R396. -/
def execSignalDetect (port : Nat) (lanes : W16) (s : State) : Host.Outcome State Fault Refusal :=
  if (s.port port).st == .detect && groupOfFour lanes then
    .next ((s.setPort port { s.port port with los := false }).setPortSt port .equalise)
  else .next s

/-- R391. -/
def execEqualiseDone (port : Nat) (ok : Bool) (s : State) : Host.Outcome State Fault Refusal :=
  if (s.port port).st == .equalise then .next (s.setPortSt port (if ok then .laneMap else .detect)) else .next s

/-- R391, R392. -/
def execLaneMapDone (port : Nat) (found : LaneMap) (s : State) : Host.Outcome State Fault Refusal :=
  if (s.port port).st != .laneMap then .next s
  else
    let (v, ok) := (s.port port).laneMap found 3
    .next ((s.setPort port v).setPortSt port (if ok then .identify else .detect))

/-- R377, R391, R393: a port that a write at the other end takes out of UNNAMED, CONFLICT or MISMATCH passes through IDENTIFY, and tells what
it is; one that fails loses what it held (R377). -/
def execIdentifyExchange (port : Nat) (peer : Peer) (s : State) : Host.Outcome State Fault Refusal :=
  let st := (s.port port).st
  if !(st == .identify || st == .unnamed || st == .conflict || st == .mismatch) then .next s
  else
    let s := if st == .identify then s else s.setPortSt port .identify
    let s := s.setPort port { s.port port with peerRole := peer.role % 16, peerDevice := peer.device % 1024 }
    match s.identifyTo (s.roleOf port) peer with
    | .active => .next (s.enterActive port)
    | st => .next ((s.setPort port (s.port port).loseHeld).setPortSt port st)

/-- R394: one of its conditions holds. -/
def State.retrain (s : State) (port : Nat) : State :=
  if (s.port port).st == .active then (s.countPort port 2 1).setPortSt port .retrain else s

/-- The counts of R394 over the present window of 2^20 flits: a lane corrected in more than 2^16, more than 64 replays. -/
def Port.fecHigh (v : Port) : Bool := v.fecLanes.any fun n => decide (2 ^ 16 < n)
def Port.replayHigh (v : Port) : Bool := decide (64 < v.winReplays)

def execRetrainEntry (port : Nat) (why : RetrainWhy) (s : State) : Host.Outcome State Fault Refusal :=
  match why with
  | .laneLoss => .next (s.retrain port)
  | .fecRate => .next (if (s.port port).fecHigh then s.retrain port else s)
  | .replayRate => .next (if (s.port port).replayHigh then s.retrain port else s)

/-- R391: ACTIVE at the same or a narrower width, replay going on, or DOWN. -/
def execRetrainDone (port : Nat) (found : Option LaneMap) (s : State) : Host.Outcome State Fault Refusal :=
  let v := s.port port
  if v.st != .retrain then .next s
  else match found with
    | none => .next (s.enterDown port false)
    | some m =>
      let (v', ok) := v.laneMap m v.width
      if ok then .next ((s.setPort port ({ v' with replays := 0 } : Port).replayAll).enterActive port)
      else .next ((s.setPort port v').enterDown port false)

/-- A port that has trained a lane group: it can lose the signal of every lane of it (R391, R395). -/
def LinkState.trained (st : LinkState) : Bool :=
  st == .identify || st == .unnamed || st == .conflict || st == .mismatch || st == .active || st == .retrain

/-- R395, R396: every lane of the group has lost signal. -/
def execPortDown (port : Nat) (s : State) : Host.Outcome State Fault Refusal :=
  .next (if (s.port port).st.trained then s.enterDown port true else s)

/-- R391: 1 ms after DOWN. -/
def execDownTimer (port : Nat) (s : State) : Host.Outcome State Fault Refusal :=
  if (s.port port).st == .down && !(s.port port).cut then .next (s.setPortSt port .detect) else .next s

/-- R394, R402, 15 R505. -/
def execWgRetrainWrite (port : Nat) (s : State) : Host.Outcome State Fault Refusal := .next (if s.portUp port && s.serves .theodolite then s.retrain port else s)

/-- R391, R402, 15 R505. -/
def execWgDisableWrite (port : Nat) (value : Bool) (s : State) : Host.Outcome State Fault Refusal :=
  .next (if s.portUp port && s.serves .theodolite then (s.setPort port { s.port port with disable := value }).applyEnable port else s)

/-- R402, 00 R9: reading clears. A port without supply answers nothing (01 R36). -/
def execWgLostSrcRead (port : Nat) (s : State) : Host.Outcome State Fault Refusal :=
  let v := s.port port
  .next <| if !s.portUp port then s else { s.setPort port { v with lostSrc := 0 } with out := leBytes 8 v.lostSrc.toNat }

/-! ## Flits (R378-R381) -/

/-- A flit that is discarded: one NAK for the first after a good one (R381). -/
def State.badFlit (s : State) (port : Nat) : State :=
  let v := s.port port
  if v.nakSent then s else s.setPort port ({ v with nakSent := true }.idle true)

/-- R378, R379, R381, R394: ACK counts only while ACK_VALID is set. -/
def execFlitReceive (port : Nat) (flit : List Byte) (s : State) : Host.Outcome State Fault Refusal :=
  if (s.port port).st != .active ∨ flit.length ≠ 256 then .next s
  else
    let (b, fixed) := fecCorrect flit
    let s := if fixed then s.countPort port 0 1 else s
    let s := s.setPort port ((s.port port).noteFec flit b)
    let hd := leNat (b.take 8)
    let ack := if hd.testBit 26 then some (bitsOf hd 25 14) else none
    if leNat ((b.drop 0xE8).take 8) ≠ crc64 (b.take 0xE8) then .next (s.badFlit port)
    else
      let data := hd % 4 == 1
      let v := s.port port
      if data && bitsOf hd 13 2 != v.expect % 4096 then .next (s.badFlit port)
      else
        let v := if data then
            (List.range (bitsOf hd 58 56)).foldl (fun (v : Port) i => v.takeUnit (flitUnit hd b i))
              { v with expect := v.expect + 1 }
          else v
        let v := { v with nakSent := false }
        let s := s.setPort port (match ack with | some a => v.acked a | none => v)
        .next (if hd.testBit 27 then s.nak port ack else s.pump port)

/-- R381, R394. -/
def execNakReceive (port : Nat) (ack : Option Nat) (s : State) : Host.Outcome State Fault Refusal :=
  if (s.port port).st == .active then .next (s.nak port ack) else .next s

/-- R381: at least one flit every 64 flit times. -/
def execFlitKeepalive (port : Nat) (s : State) : Host.Outcome State Fault Refusal :=
  if (s.port port).st == .active then .next (s.setPort port ((s.port port).idle false)) else .next s

/-- R385: a kind 9 packet gives credit back, at most the receive buffer's 2,048 units. -/
def execLinkCredit (port : Nat) (s : State) : Host.Outcome State Fault Refusal :=
  match s.takeRecv port fun k => k.kind == 9 with
  | none => .next s
  | some (k, s) =>
    let v := s.port port
    let b := k.data.map (·.1)
    let v := { v with credit := (v.credit.zipIdx).map fun ci => min 2048 (ci.1 + fld b (2 * ci.2) 2) }
    .next ((s.setPort port v).pump port)

/-! ## The transit switch (R375, R387-R389) -/

/-- A Stratus packet for another module as a link packet (R382, R383). -/
def linkOf (own : Nat) (k : Packet) : Option (LinkPkt × Nat × Nat) :=
  let base : LinkPkt := { kind := 0, flags := 0, stream := 0, amount := 0, dest := 0, source := 0, signal := 0, way := none, data := [] }
  let addr (d x y low : Nat) : W64 := BitVec.ofNat 64 (globalAddr d x y 0 + low)
  match k.body, k.src with
  | .msg m, _ =>
    let sig := match m.signal with | some g => g.beacon % 32 + g.add % 2 ^ 13 * 32 | none => 0
    some ({ base with kind := if m.commit then 1 else 0, flags := bit m.signal.isSome 0
                      dest := addr m.dev m.x m.y (m.index % 16 + bit m.ring 4)
                      source := addr m.srcDev m.srcX m.srcY (m.srcCh % 16 + bit m.srcPort 4), signal := sig, data := m.data }, m.srcX, m.srcY)
  | .grant (.channel d x y c _) n, .plot sx sy =>
    some ({ base with kind := 2, amount := n, dest := addr d x y (c % 16), source := addr own sx sy 0 }, sx, sy)
  | .close (.channel d x y c _), .plot sx sy =>
    some ({ base with kind := 3, dest := addr d x y (c % 16), source := addr own sx sy 0 }, sx, sy)
  | .drop (.channel d x y c _), .plot sx sy =>
    some ({ base with kind := 4, dest := addr d x y (c % 16), source := addr own sx sy 0 }, sx, sy)
  | _, _ => none

/-- A packet that has come to its module enters Stratus or Nimbus at a port's attachment. -/
def State.enterHere (s : State) (port : Nat) (k : LinkPkt) : State :=
  let own := s.regs.device
  let d := k.dest.toNat
  let x := bitsOf d 38 28
  let y := bitsOf d 27 18
  let low := d % 32
  let src := k.source.toNat
  let put (vc : Nat) (b : PktBody) : State := if onGrid x y then s.putPacket ⟨.port port, .plot x y, vc, b⟩ else s.countPort port 4 1
  let w : Writer := .channel own x y (low % 16) false
  match k.kind with
  | 2 => put 3 (.grant w k.amount)
  | 3 => put 3 (.close w)
  | 4 => put 3 (.drop w)
  | 5 =>
    let t := TallyPkt.ofWord (leNat ((k.data.map (·.1)).take 8))
    let role := if t.kind = 0 then 5 else 4
    match (s.nodes t.tree).find? fun n => n.slot.role == role with
    | some n =>
      let a := nearestAttachment (portSide port) (s.placeField (.port port)) ⟨n.x, n.y⟩
      match s.fenceHit (s.rimHop (.port port)) with
      | some f => s.discard f
      | none => s.putTallyVia [fieldOf n.x n.y] { t with x := n.x, y := n.y, slot := n.k, srcX := a.x, srcY := a.y }
    | none => s.discard (s.placeField (.port port))
  | 10 => { s with notices := s.notices ++ [(k.stream % 4096, bitsOf src 48 39)] }
  | _ =>
    let m : Message :=
      { dev := own, x := x, y := y, ring := low.testBit 4, index := low % 16, data := k.data, srcDev := bitsOf src 48 39
        srcX := bitsOf src 38 28, srcY := bitsOf src 27 18, srcCh := src % 16, srcPort := src.testBit 4
        signal := if k.flags.testBit 0 then some ⟨k.signal % 32, k.signal / 32 % 2 ^ 13⟩ else none, commit := k.kind == 1, short := false }
    put (if k.kind = 1 then 0 else 1) (.msg m)

/-- Whether the switch holds a packet after a change of ACTIVE ports (R388). -/
def State.switchHolds (s : State) (k : LinkPkt) : Bool :=
  match s.egress k with
  | .out role t k => s.roleHeld role t k
  | _ => false

/-- Kinds that the switch routes; a reserved kind is discarded there. -/
def switched (k : LinkPkt) : Bool := k.kind != 6 && k.kind != 7 && k.kind != 8 && k.kind != 9

/-- R375, R383, R387-R389, R398, R400. -/
def execWengaPacketArrival (source : SwitchIn) (s : State) : Host.Outcome State Fault Refusal :=
  match source with
  | .port p =>
    match s.takeRecv p fun k => switched k && !s.switchHolds k with
    | none => .next s
    | some (k₀, s) =>
      if 10 < k₀.kind then .next (s.countPort p 4 1)
      else match s.egress k₀ with
        | .here k => .next (s.enterHere p k)
        | .discard => .next (s.countPort p 4 1)
        | .out role t k => .next (s.switchOut k role t p (s.nextClass k₀ (some p) role)).1
  | .stratus a =>
    match s.stratus[a.n]? with
    | none => .next s
    | some e =>
      let pk := { e.pkt with body := e.pkt.body.mar a.err.poison }
      match pk.dst, pk.body with
      | .away _, _ =>
        match linkOf s.regs.device pk with
        | none => .next s
        | some (k, x, y) =>
          if s.switchHolds k then .next s
          else match s.takePacket a.n with
            | none => .next s
            | some (_, s) =>
              let p := s.nearestPort x y
              match s.fenceHit e.way with
              | some f => .next (s.discard f)
              | none =>
                let s := s.linkErrors (s.placeField (.port p)) a.err
                match s.egress k with
                | .here k => .next (s.enterHere p k)
                | .discard => .next (s.countPort p 4 1)
                | .out role t k => .next (s.switchOut k role t p 0).1
      | .port p, .msg m =>
        match s.takePacket a.n with
        | none => .next s
        | some (e, s) =>
          match s.fenceHit e.way with
          | some f => .next (s.discard f)
          | none =>
            let s := s.linkErrors (s.placeField (.port p)) a.err
            if (s.port p).st != .active then .next s
            else match linkOf s.regs.device pk with
              | none => .next s
              | some (k, _, _) =>
                .next (s.enqueue p { k with kind := 6, stream := m.index
                                            dest := BitVec.ofNat 64 (globalAddr s.regs.device 0 0 0) })
      | _, _ => .next s

/-- R388: packets that were held go on, in the ports and in the switch. -/
def execRoleHoldExpiry (role : Nat) (s : State) : Host.Outcome State Fault Refusal :=
  let s := { s with roleHolds := listDel role s.roleHolds }
  .next ((List.range 16).foldl (fun (s : State) p => s.resteer p) s).retryHeld

/-! ## Streams (R398-R400) -/

/-- Whether a message is longer than its reader allows: 32 bytes for a queue, half a ring's size for a ring (06 R226, R230). -/
def State.streamTooLong (s : State) (e : StreamEnd) (len : Nat) : Bool :=
  if e.index < 16 then decide (32 < len)
  else
    let g := (s.plot (s.phys e.x e.y)).ring (e.index - 16)
    len == 0 || decide (4096 < len) || decide (ringUnits g.rsz < 2 * (1 + (len + 31) / 32))

/-- R400. -/
def execStreamData (port : Nat) (s : State) : Host.Outcome State Fault Refusal :=
  match s.takeRecv port fun k => k.kind == 6 with
  | none => .next s
  | some (k, s) =>
    match (s.parcels.flatMap (·.inStreams)).find? fun e => e.port == port && e.stream == k.stream with
    | none => .next (s.countPort port 4 1)
    | some e =>
      if s.streamTooLong e k.data.length then .next (s.countPort port 4 1)
      else
        let m : Message :=
          { dev := s.regs.device, x := e.x, y := e.y, ring := decide (16 ≤ e.index), index := e.index % 16, data := k.data
            srcDev := s.regs.device, srcX := e.stream, srcY := 0, srcCh := port, srcPort := true
            signal := if k.flags.testBit 0 then some ⟨k.signal % 32, k.signal / 32 % 2 ^ 13⟩ else none, commit := false, short := false }
        .next (s.putPacket ⟨.port port, .plot e.x e.y, 1, .msg m⟩)

/-- R398: credit from the gateway becomes a grant to the writer channel. -/
def execStreamCredit (port : Nat) (s : State) : Host.Outcome State Fault Refusal :=
  match s.takeRecv port fun k => k.kind == 7 with
  | none => .next s
  | some (k, s) =>
    match (s.parcels.flatMap (·.outStreams)).find? fun e => e.port == port && e.stream == k.stream with
    | none => .next s
    | some e =>
      .next (s.putPacket ⟨.port port, .plot e.x e.y, 3, .grant (.channel s.regs.device e.x e.y e.index false) k.amount⟩)

end Sys2Proof.Machine
end

