-- ==== Sys2Proof/Machine/PowerOps.lean ====
section
/-! DEFINITION. Shared operations on fields and the module as a whole: operating points and the network clock (spec/14 R466-R470, R476),
fences and route tables (spec/08 R286, R294), retired stacks (spec/09 R339), lost supplies (spec/12 R414, spec/13 R453), restarts of
processors (spec/15 R506, R507). -/

namespace Sys2Proof.Machine

/-! ## Free values -/

/-- One free value (log entry 1). -/
def State.draw (s : State) : Nat × State := ((Config.word s.freeCtr).toNat, { s with freeCtr := s.freeCtr + 1 })

/-! ## Operating points (R466) -/

/-- Power of a field at a point, in 0.1 W, and core voltage in mV. -/
def pointWatts (p : Nat) : Nat := ([7872, 6336, 4704, 3360, 2285, 1190, 499, 403][p]?).getD 403
def pointMv (p : Nat) : Nat := ([850, 800, 740, 680, 620, 550, 500, 450][p]?).getD 450

def Field.toPoint (v : Field) (p : Nat) : Field := { v with point := p, vdd := pointMv p + v.trimNow }

/-- The point of a field under a fix: the cap governor still acts on it (R471), and age withholds point 0 (R480). -/
def Field.fixAt (v : Field) : Nat := max (max v.fixPoint v.cap) (bit v.ageLimit 0)

def Field.live (v : Field) : Bool := v.pwrEn && v.pwrOk && v.rstN

/-- The slowest and the fastest point of the fields that run; none run: 7. -/
def State.slowest (s : State) : Nat := (s.fields.filter Field.live).foldl (fun m v => max m v.point) 0
def State.fastest (s : State) : Nat := (s.fields.filter Field.live).foldl (fun m v => min m v.point) 7

/-- The network clock is lowered where the slowest field needs it (R467). -/
def State.lowerNet (s : State) : State := { s with pwr := { s.pwr with netPoint := max s.pwr.netPoint s.slowest } }

/-- PWR_GOOD (17 R537): high in Idle, Active and Squall, low in Standby and so during every reset; none is high impedance, in Off. -/
def State.pwrGood (s : State) : Option Bool :=
  match s.pwr.state with
  | .off => none
  | .standby => some false
  | .idle => some true
  | .active => some true
  | .squall => some true

/-- Change every field that runs. -/
def State.mapLive (s : State) (f : Field → Field) : State := { s with fields := s.fields.map fun v => if v.live then f v else v }

/-! ## Isobar's choice (R468-R470) -/

/-- The slowest point with at least half the frequency of a point. -/
def halfPoint (p : Nat) : Nat := (List.range 8).foldl (fun m q => if pointFreq p ≤ 2 * pointFreq q then q else m) 0

/-- The fastest point whose frequency is at most twice that of a point. -/
def twicePoint (p : Nat) : Nat := ((List.range 8).find? fun q => decide (pointFreq q ≤ 2 * pointFreq p)).getD 7

/-- Fields that would run at more than twice the slowest field's frequency are lowered with it (R467, 08 R307). The steps of one change
are not shown (log entry 88). -/
def State.keepRatio (s : State) : State :=
  let p := twicePoint s.slowest
  s.mapLive fun v => if v.point < p then v.toPoint p else v

/-- A field's point under a ceiling, none when it has no hint: protected or plain, its own ceilings, point 0 withheld by age. -/
def Field.pick (v : Field) (plain : Bool) (c : Nat) : Option Nat :=
  if v.fixed then some v.fixAt
  else if !v.hintValid then none
  else some (max (max (max v.hint (if plain then c else min c v.floor)) (max v.heat v.cap)) (bit v.ageLimit 0))

/-- The lesser of two points, where there are any. -/
def lessPoint (m p : Option Nat) : Option Nat :=
  match m, p with
  | some a, some b => some (min a b)
  | none, p => p
  | m, none => m

/-- The points of all fields under a ceiling (R468, R470): none stays faster than twice the slowest, but for a fix, and then those without a
hint go as slow as the fastest one lets them. -/
def State.points (s : State) (plain : Bool) (c : Nat) : List Nat :=
  let picks := s.fields.map fun v => if v.live then v.pick plain c else none
  let slow := (s.fields.zip picks).foldl (fun m vp => if vp.1.live then max m (vp.2.getD (max vp.1.heat vp.1.cap)) else m) 0
  let picks := (s.fields.zip picks).map fun vp => vp.2.map fun p => if vp.1.fixed then p else max p (twicePoint slow)
  let fill := match picks.foldl lessPoint none with
    | some p => halfPoint p
    | none => 7
  (s.fields.zip picks).map fun vp => if vp.1.live then vp.2.getD (max fill (max vp.1.heat vp.1.cap)) else vp.1.point

/-- The points of R470 before any adjustment: max(hint, c) or max(hint, min(c, floor)); a fix; where there is no hint, and so no such point, the
present one (DESIGN CHOICE, log entry 104). -/
def State.bare (s : State) (plain : Bool) (c : Nat) : List Nat :=
  s.fields.map fun v =>
    if v.live && v.fixed then v.fixAt
    else if v.live && v.hintValid then max v.hint (if plain then c else min c v.floor)
    else v.point

/-- Predicted power, mW: what each field draws now, scaled by the figures of R466. -/
def State.predict (s : State) (other : Nat) (pts : List Nat) : Nat :=
  (s.fields.zip pts).foldl (fun n vp => n + vp.1.watts * 1000 * pointWatts vp.2 / pointWatts vp.1.point) (other * 1000)

/-- The mode and ceiling of R470: plain or protected. -/
def State.ceiling (s : State) (other : Nat) : Bool × Nat :=
  let ok (plain : Bool) (c : Nat) : Bool := decide (s.predict other (s.bare plain c) ≤ s.pwr.inForce * 1000)
  match (List.range 8).find? (ok false) with
  | some c => (false, c)
  | none => match (List.range 8).find? (ok true) with
    | some c => (true, c)
    | none => (true, 7)

/-- Slots of each hundred that run one ceiling faster (R470). -/
def State.fasterSlots (s : State) (other : Nat) (plain : Bool) (c : Nat) : Nat :=
  if c = 0 then 0
  else
    let hi := s.predict other (s.bare plain (c - 1))
    let lo := s.predict other (s.bare plain c)
    let budget := s.pwr.inForce * 1000
    if hi ≤ lo ∨ budget < lo then 0 else min 99 ((budget - lo) * 100 / (hi - lo))

/-- The points of this slot. -/
def State.choice (s : State) (other : Nat) : List Nat :=
  let (plain, c) := s.ceiling other
  s.points plain (if s.pwr.dither < s.fasterSlots other plain c then c - 1 else c)

/-- Points in force by the power state: Idle's, squall's ceilings over a choice, or the choice. Under a fixed network clock the other fields stay fast enough
for it in Idle (08 R307; DEDUCED, log entry 105). -/
def State.applyPoints (s : State) (pts : List Nat) : State :=
  let st : Power := s.pwr.state
  let go (vp : Field × Nat) : Field :=
    let v : Field := vp.1
    if !v.live then v
    else if st == .squall then v.toPoint (max vp.2 (if v.squalled then 7 else 5))
    else if st == .idle && !v.fixed then v.toPoint (if s.pwr.netFixed then min 6 s.pwr.netFix else 6)
    else v.toPoint vp.2
  let s : State := { s with fields := (s.fields.zip pts).map go }
  let net := if st == .squall then 7 else if s.pwr.netFixed then s.pwr.netFix else if st == .idle then 6 else s.slowest
  { s with pwr := { s.pwr with netPoint := net } }

/-! ## Squall (R476, R477, 16 R531) -/

/-- Every halted plot resumes. -/
def State.clearHalts (s : State) : State :=
  s.mapPlots fun p => ({ p with haltReq := false, seq := { p.seq with halted := false, stepOne := false } }).noteQuiet

def State.main (s : State) : Bool := s.pwr.state == .idle || s.pwr.state == .active || s.pwr.state == .squall

/-- Fields under the squall ceilings, the named ones squalled. -/
def State.squallFields (s : State) (who : Nat → Bool) : State :=
  { s with fields := (s.fields.zipIdx).map fun vi =>
      let v := if who vi.2 then { vi.1 with squalled := true } else vi.1
      if v.live then v.toPoint (if v.squalled then 7 else max v.point 5) else v }

/-- Every stack in self-refresh, or out of it (09 R337). -/
def State.refresh (s : State) (on : Bool) : State := { s with emcs := s.emcs.map fun (e : Emc) => { e with selfRefresh := on } }

/-- A squall cause arises. Before the main domains are released it is only recorded. -/
def State.enterSquall (s : State) (cause : Nat) (who : Nat → Bool) : State :=
  let s := { s with pwr := { s.pwr with causes := s.pwr.causes ||| BitVec.ofNat 6 (2 ^ cause) } }
  if !s.main then s
  else
    let was := s.pwr.state == .squall
    let s := s.squallFields who
    let s := ({ s with pwr := { s.pwr with netPoint := 7, state := .squall, waking := false } }).refresh false
    if was then s
    else
      let s := { s.clearHalts with dbg := { s.dbg with suspended := true } }
      ((s.alert 2).powerEvent 0).event 0x08 [1 + 2 * s.pwr.causes.toNat] none

/-- A cause is absent. -/
def State.dropCause (s : State) (cause : Nat) (absent : Bool) : State :=
  if absent then { s with pwr := { s.pwr with causes := s.pwr.causes &&& ~~~(BitVec.ofNat 6 (2 ^ cause)) } } else s

/-- No plot RUNNING or DRAINING and no edge memory request outstanding (R483). -/
def State.quiet (s : State) : Bool :=
  (s.plots.all fun pp => pp.2.st != .running && pp.2.st != .draining && pp.2.edge.trackers.isEmpty)
    && s.emcs.all fun e => e.pool.isEmpty

/-! ## Fences and routes (08 R286, R294) -/

/-- The field beyond a side: 0 N, 1 E, 2 S, 3 W. -/
def fieldBeyond (f d : Nat) : Option Nat :=
  match d with
  | 0 => if f < 8 then none else some (f - 8)
  | 1 => if f % 8 = 7 then none else some (f + 1)
  | 2 => if 40 ≤ f then none else some (f + 8)
  | _ => if f % 8 = 0 then none else some (f - 1)

/-- Fence one side of a field. -/
def State.fenceSide (s : State) (f d : Nat) (auto : Bool) : State :=
  let v := s.field f
  s.setField f { v with side := v.side ||| BitVec.ofNat 4 (2 ^ d), auto := v.auto || auto }

/-- The neighbours of a field fence the shared sides. -/
def State.fenceAround (s : State) (f : Nat) (auto : Bool) : State :=
  (List.range 4).foldl (fun (s : State) d => match fieldBeyond f d with
    | some g => s.fenceSide g (oppositeSide d) auto
    | none => s) s

/-- Fields entered on a straight route. -/
def entered (f g : Nat) : List Nat := (fieldWalk f g 8).map fun h => h.2.2

def State.avoids (s : State) (l : List Nat) : Bool := l.all fun f => !(s.field f).fenced

/-- The coordinate of a range that is nearest to another by the hops of R284, ties to the lower; inside the range it is the same. -/
def nearestCoord (lo n a : Nat) : Nat :=
  if lo ≤ a ∧ a < lo + n then a
  else
    ((List.range n).foldl (fun (best : Option (Nat × Nat)) i =>
      let d := absDiff a (lo + i)
      let h := d % 16 + d / 16
      match best with
      | none => some (lo + i, h)
      | some b => if h < b.2 then some (lo + i, h) else some b) none).elim lo (·.1)

/-- The most express hops and mesh hops that a waypoint field adds in one dimension, over all plots of the source and destination fields. -/
def dimAdded (len sc wc dc : Nat) : Int × Int :=
  (List.range len).foldl (fun (m : Int × Int) i =>
    let a := sc * len + i
    let w := nearestCoord (wc * len) len a
    (List.range len).foldl (fun (m : Int × Int) j =>
      let b := dc * len + j
      let e : Int := (absDiff a w / 16 + absDiff w b / 16 : Nat) - (absDiff a b / 16 : Nat)
      let h : Int := (absDiff a w % 16 + absDiff w b % 16 : Nat) - (absDiff a b % 16 : Nat)
      (max m.1 e, max m.2 h)) m) (-1000, -1000)

def fieldDist (f g : Nat) : Nat := absDiff (f % 8) (g % 8) + absDiff (f / 8) (g / 8)

/-- Whether a field qualifies as waypoint of two others. -/
def State.qualifies (s : State) (f g w : Nat) : Bool :=
  decide (fieldDist f w + fieldDist w g ≤ fieldDist f g + 4) && s.avoids (entered f w ++ entered w g) &&
    (let x := dimAdded 150 (f % 8) (w % 8) (g % 8)
     let y := dimAdded 128 (f / 8) (w / 8) (g / 8)
     decide (x.1 + y.1 ≤ 18 ∧ x.2 + y.2 ≤ 30))

/-- The route entry of a destination field: straight where that meets no fenced field, else the qualifying waypoint with the fewest field
crossings, then the lowest number. -/
def State.routeEntry (s : State) (f g : Nat) : Nat × Bool :=
  if (s.field g).fenced then (g, true)
  else if s.avoids (entered f g) then (g, false)
  else match ((List.range 5).flatMap fun extra =>
      (List.range 48).filter fun w => fieldDist f w + fieldDist w g == fieldDist f g + extra).find? (s.qualifies f g) with
    | some w => (w, false)
    | none => (g, true)

def State.routeTables (s : State) : List (List (Nat × Bool)) :=
  (List.range 48).map fun f => if (s.field f).fenced then (s.field f).route else (List.range 48).map (s.routeEntry f)

/-- Theodolite rewrites the route tables of every field. -/
def State.rewriteRoutes (s : State) : State :=
  { s with fields := (s.fields.zip s.routeTables).map fun vr => { vr.1 with route := vr.2 } }

/-! ## Waypoints between modules (11 R390) -/

/-- A link of this module in a torus direction is down: no port of the role is ACTIVE. -/
def State.linkDown (s : State) (role : Nat) : Bool := (s.activePorts role).isEmpty

/-- The links of a dimension-order leg between devices: the device and the role that each leaves by (R387). -/
def Regs.leg (r : Regs) (t : Nat) : Nat → Nat → List (Nat × Nat)
  | 0, _ => []
  | n + 1, d =>
    let here := { r with device := d }
    match here.towards t with
    | none => []
    | some role => match here.neighbourDev role with
      | none => [(d, role)]
      | some e => (d, role) :: r.leg t n e

/-- A leg uses no link of this module that is down, from either end. -/
def State.legClear (s : State) (own a b : Nat) : Bool :=
  (s.regs.leg b 64 a).all fun h =>
    let back := oppositeRole h.2
    !(h.1 == own && s.linkDown h.2) && !(({ s.regs with device := h.1 } : Regs).neighbourDev h.2 == some own && s.linkDown back)

/-- A device ID inside the torus. -/
def Regs.inside (r : Regs) (d : Nat) : Bool := (List.range 3).all fun dim => decide (coordOf d dim < r.size dim)

/-- The MODROUTE entry of a device: straight where that meets no down link, else by the lowest device whose two legs meet none (log entry 87). -/
def State.modEntry (s : State) (d : Nat) : W32 :=
  let own := s.regs.device
  if !s.regs.inside d || d == own || s.legClear own own d then 0
  else match (List.range 1024).find? fun w =>
      s.regs.inside w && w != own && w != d && s.legClear own own w && s.legClear own w d with
    | some w => BitVec.ofNat 32 (w + 2 ^ 10)
    | none => BitVec.ofNat 32 (2 ^ 11)

/-- Theodolite installs waypoints around the links of this module that are down, once the host has named it. -/
def State.rewriteModroute (s : State) : State :=
  if !s.regs.written then s
  else { s with regs := { s.regs with modroute := ((List.range 1024).map fun d => (d, s.modEntry d)).filter fun e => e.2 != 0 } }

/-- Some route of a field that is not fenced meets a fenced one: a rewrite is due to an earlier event. -/
def State.routesDue (s : State) : Bool :=
  (List.range 48).any fun f => !(s.field f).fenced && (List.range 48).any fun g =>
    match s.routeOf f g with
    | none => false
    | some hops => !s.avoids (hops.map fun h => h.2.2)

/-! ## Retired stacks (09 R339) -/

/-- Retire a stack: one change of the gazetteer, one event. -/
def State.retireStack (s : State) (c : Nat) : State :=
  if (s.emc c).retired then s
  else
    let s := s.setEmc c { s.emc c with retired := true }
    (s.survey fun v => ({ v with retired := insertNat c v.retired } : Survey).bump).event 0x0E [c] none

/-! ## Supplies (12 R414, 13 R453, 16 R527, R531) -/

/-- A fresh DBG_NONCE. -/
def State.freshNonce (s : State) : State := { s with dbg := { s.dbg with nonceAt := s.freeCtr }, freeCtr := s.freeCtr + 1 }

/-- The end of an unlock token: level None, a fresh nonce (R527). -/
def State.endToken (s : State) : State :=
  let s := if s.dbg.tokenValid then s.freshNonce else s
  { s with dbg := { s.dbg with tokenValid := false, level := 0 } }

/-- A parcel faults by a field, where no plot stands for it: what the report takes of a first plot is open, but for the field (R439). -/
def State.faultParcelBy (s : State) (n cause f : Nat) : State :=
  let trap := (List.range 6).flatMap fun i => leBytes 8 (Config.word (s.freeCtr + i)).toNat
  let first := if cause = 5 then f else (Config.word (s.freeCtr + 6)).toNat
  ({ s with freeCtr := s.freeCtr + 7 }).faultParcel n cause first trap (s.field f).cycles s.regs.epoch

/-- Every parcel that touches a field faults. -/
def State.faultTouching (s : State) (f cause : Nat) : State :=
  s.parcels.foldl (fun (s : State) p => if p.touches f then s.faultParcelBy p.num cause f else s) s

/-- Ports follow what enables them (11 R391). -/
def State.applyPorts (s : State) : State := (List.range 16).foldl (fun (s : State) p => s.applyEnable p) s

/-- Every main domain opens; squall causes stay while they are present (14 R474, R485); an unlock token ends on entry to Standby (16 R527); what was in edge memory is lost (09 R337) and reads as zero with valid check bits (log entry 7). -/
def State.openMain (s : State) : State :=
  let was := s.main
  let s := s.parcels.foldl (fun (s : State) p =>
    match (List.range 48).find? fun f => p.touches f with
    | some f => s.faultParcelBy p.num 5 f
    | none => s) s
  let off (v : Field) : Field := { v with pwrEn := false, pwrOk := false, rstN := false, squalled := false }
  let s : State := { s with fields := s.fields.map off }
  let s := { s with edge := Mem.reset
                    clk := { s.clk with mem := Domain.off, link := Domain.off, clock := Domain.off }
                    pwr := { s.pwr with state := if s.pwr.state == Power.off then Power.off else Power.standby, waking := false }
                    dbg := { s.dbg with suspended := false } }
  if was then s.applyPorts.endToken else s.applyPorts

/-- A field's switch opens on a supply fault: fences in hardware, and Isobar's latch. -/
def State.cutField (s : State) (f : Nat) : State :=
  let v := s.field f
  let s := s.setField f { v with pwrEn := false, pwrOk := false, rstN := false, fenced := true, supply := true }
  let s := s.fenceAround f true
  { s with pwr := { s.pwr with supplyFault := s.pwr.supplyFault ||| BitVec.ofNat 48 (2 ^ f) } }

/-- Isobar's report of a field in the latch. -/
def State.reportSupply (s : State) (f : Nat) : State :=
  if s.pwr.supplyFault.getLsbD f && s.serves .isobar then
    (({ s with pwr := { s.pwr with supplyFault := s.pwr.supplyFault &&& ~~~(BitVec.ofNat 48 (2 ^ f)) } }).alert 3).event 0x05 [f] none
  else s

/-- Theodolite's record of a field fenced for supply: one change of the gazetteer. -/
def State.recordFenced (s : State) (f : Nat) : State :=
  if s.nv.survey.fenced.contains f || !s.serves .theodolite then s
  else s.survey fun v => ({ v with fenced := insertNat f v.fenced } : Survey).bump

/-- A supply fault in operation, but for the rewrite of routes, the second attachments and the lost trees, which follow as events of their
own (13 R453-R455). -/
def State.supplyFault (s : State) (f : Nat) : State :=
  if !(s.field f).live then s
  else (((s.cutField f).faultTouching f 5).reportSupply f).recordFenced f

/-! ## Restarts (13 R457, 15 R506, R507) -/

/-- The SERVICE_RESTART event. -/
def State.restartEvent (s : State) (p : Proc) (phase : Nat) : State :=
  s.event 0x09 [procIndex p, phase, (s.proc p).restarts] none

/-- The journal is settled as at S1 (13 R462), and what Compass held of transactions is gone; the answer's number is DETAIL[2] of S1. -/
def State.discardTxns (s : State) : State × Nat :=
  let n := (s.nv.staged ++ s.nv.work ++ s.nv.due.getD []).foldl Nv.dropTxn s.nv
  let (n, d) := n.settle
  ({ s with nv := { n with staged := [], work := [], due := none } }, d)

/-- A restart of Compass: a command that was in progress completes with RESTARTED set, FAILED unless its transactions are committed (R507, R508), and a survey
record whose write was not committed is written by a transaction from its beginning (13 R463, R482). Under a non-volatile block nothing is programmed: what
was held is settled when the block ends (`State.runWork`). -/
def State.restartTxns (s : State) : State :=
  let work := s.nv.work
  let blocked := s.nvBlocked
  let s := if blocked then { s with nv := { s.nv with staged := [], work := [], due := some (s.nv.staged ++ work ++ s.nv.due.getD []) } }
    else (s.discardTxns).1
  work.foldl (fun (s : State) t => match t.cmd, t.last, t.survey with
    | some c, true, _ => if 4 ≤ t.step then (if blocked then s else s.respond c 2 stOk [t.num] none true) else s.respond c 2 stFailed [] none true
    | none, _, some v => if 4 ≤ t.step then s else s.queueTxn { t with num := s.nv.nextTxn, survey := some v, step := 0 }
    | _, _, _ => s) s

def State.beginRestart (s : State) (p : Proc) : State :=
  let v := s.proc p
  if v.restarting || !v.up || v.cut then s
  else
    let s := s.setProc p { v with restarting := true, expired := false, halted := false }
    let s := match p with
      | .compass => s.restartTxns
      | .alidade => s
      | .theodolite => s
      | .isobar => s
    (s.alert 4).restartEvent p 0

end Sys2Proof.Machine
end

