-- ==== Sys2Proof/Machine/Bundles.lean ====
section
/-! DEFINITION. Signed bundles and unlock tokens (spec/16 R514-R521, R526, R527, R532): what they hold, who has signed them, what the security
state lets them do. -/

namespace Sys2Proof.Machine

/-! ## Keys -/

/-- OWNER_DIGEST, the fused digest of the owner key's modulus (R516). -/
def Nv.ownerDigest (n : Nv) : List Byte := (List.range 16).flatMap fun i => leBytes 4 (n.fuse (0x10 + i)).toNat

/-- A modulus is the fused owner key's. -/
def Nv.isOwner (n : Nv) (modulus : List Byte) : Bool := sha512 modulus == n.ownerDigest

/-! ## Bundles (R519) -/

/-- The form of a bundle: magic, type, length, reserved bytes, counts. -/
def bundleOk (b : List Byte) (len : Nat) : Bool :=
  let t := fld b 8 4
  decide (b.length = len ∧ 0x600 ≤ len ∧ fld b 0 8 = 0x31304C444E425141 ∧ t ≤ 1 ∧ fld b 0x10 8 = len ∧ fld b 0x18 4 ≤ 32 ∧ fld b 0x0C 4 ≤ 32)
    && zeroAt b 0x70 0x90 && (t == 0 || (fld b 0x0C 4 == 0 && zeroAt b 0x20 0x40))

def bundleSigned (b : List Byte) : List Byte := b.take (b.length - 1024)
def bundleRyulal (b : List Byte) : List Byte := (b.drop (b.length - 1024)).take 512
def bundleOwner (b : List Byte) : List Byte := b.drop (b.length - 512)
def bundleTable (b : List Byte) : List Byte := (b.drop (fld b 0x60 8)).take (fld b 0x68 8)
def bundleFuses (b : List Byte) : List (Nat × W32) :=
  (List.range (fld b 0x18 4)).map fun i => (fld b (0x100 + 8 * i) 4, BitVec.ofNat 32 (fld b (0x104 + 8 * i) 4))

def allZero (l : List Byte) : Bool := l.all (· == 0)

/-- The owner signature of a bundle under a key. -/
def signedBy (modulus b : List Byte) : Bool := rsaVerify modulus (bundleOwner b) (bundleSigned b)

/-- The image bundle of a firmware bundle: what its signatures say. -/
def Image.ofBundle (b : List Byte) : Image :=
  let t := bundleTable b
  let key := t.take 512
  { good := true, svn := fld b 0x0C 4, digest := sha512 b, keyTable := t
    ryulal := rsaVerify Config.firmwareKey (bundleRyulal b) (bundleSigned b), unowned := allZero (bundleOwner b), owned := signedBy key b
    tableSigned := rsaVerify key ((t.drop 0x1204).take 512) (t.take 0x1204) }

/-- The checks of a firmware bundle in the security state in force, by FW_STAGE and by the S0 ROM alike (R514, R516, R518, R519). -/
def Nv.permits (n : Nv) (i : Image) : Bool :=
  let fused := n.isOwner (i.keyTable.take 512)
  i.ryulal && decide (n.fusedSvn ≤ i.svn) &&
    (match n.secState with
     | 0 => true
     | 1 => (i.unowned || i.owned && fused) && i.tableSigned && fused
     | _ => i.owned && i.tableSigned && fused)

/-- Whether FW_STAGE permits a firmware bundle: it writes fuse word 1 alone (R516). -/
def Nv.firmwarePermitted (n : Nv) (b : List Byte) : Bool := n.permits (Image.ofBundle b) && (bundleFuses b).all fun w => w.1 == 1

/-- The image that the ROM takes from flash: image A, else image B (12 R415, R519). -/
def Nv.romImage (n : Nv) : Option Image :=
  ([n.select, 1 - n.select].filterMap fun d => n.slots[d]?).find? fun i => i.good && n.permits i

/-- The transaction of a firmware bundle: one fuse word 1, with the bundle's bits and the FW_SVN bits it needs. -/
def Nv.firmwareTxn (n : Nv) (b : List Byte) : Txn :=
  let svn := fld b 0x0C 4
  let raise : W32 := if n.fusedSvn < svn then BitVec.ofNat 32 (2 ^ svn - 1) else 0
  let word := (bundleFuses b).foldl (fun w f => w ||| f.2) raise
  { num := n.nextTxn, image := some (Image.ofBundle b), survey := none, select := true, fuses := if word = 0 then [] else [(1, word)], step := 0
    copyDev := 0, cmd := none, last := true }

/-- The state that a value of fuse word 0 shows (R516). -/
def fuseState (w : W32) : Nat := if w.getLsbD 2 then 3 else if w.getLsbD 1 then 2 else if w.getLsbD 0 then 1 else 0

/-- The bits that a bundle blows in a fuse word: those of every value it gives for it. -/
def blownBits (ws : List (Nat × W32)) (i : Nat) : W32 := (ws.filter fun w => w.1 == i).foldl (fun v w => v ||| w.2) 0

/-- The owner digest that a bundle provisions, when it has all its words. -/
def provisioned (ws : List (Nat × W32)) : Option (List Byte) :=
  if (List.range 16).all fun i => ws.any fun w => w.1 == 0x10 + i then
    some ((List.range 16).flatMap fun i => leBytes 4 (blownBits ws (0x10 + i)).toNat)
  else none

/-- Whether a fuse-request bundle is permitted (R515, R516, R520). -/
def Nv.fusesPermitted (n : Nv) (b : List Byte) : Bool :=
  let ws := bundleFuses b
  let key := (if allZero (bundleTable b) then n.running.keyTable else bundleTable b).take 512
  let byOwner := n.isOwner key && signedBy key b && allZero (bundleRyulal b)
  let byRoot := rsaVerify Config.rootKey (bundleRyulal b) (bundleSigned b)
  let known := ws.all fun w => w.1 == 0 || w.1 == 2 || w.1 == 3 || (decide (0x10 ≤ w.1 ∧ w.1 ≤ 0x1F))
  let now := n.secState
  known && !ws.isEmpty &&
    (if !ws.any fun w => w.1 == 0 then
       if now = 0 then (ws.all fun w => w.1 == 3) && byRoot else byOwner
     else
       let aim := max now (fuseState (blownBits ws 0))
       if aim = 3 then decide (now < 3) && (byOwner || byRoot)
       else if now = 0 ∧ aim = 1 then
         (match provisioned ws with
          | some d => sha512 key == d && signedBy key b && allZero (bundleRyulal b)
          | none => false)
       else decide (now = 1 ∧ aim = 2) && byOwner)

def chunkTwo : List (Nat × W32) → List (List (Nat × W32))
  | [] => []
  | [a] => [[a]]
  | a :: b :: r => [a, b] :: chunkTwo r

/-- The chain of a fuse-request bundle: two words each, word 0 last (R520). -/
def Nv.fuseTxns (n : Nv) (b : List Byte) : List Txn :=
  let ws := bundleFuses b
  let parts := chunkTwo ((ws.filter fun w => w.1 != 0) ++ ws.filter fun w => w.1 == 0)
  (parts.zipIdx).map fun pi =>
    { num := n.nextTxn + pi.2, image := none, survey := none, select := false, fuses := pi.1, step := 0, copyDev := 0, cmd := none
      last := pi.2 + 1 == parts.length }

/-- Stage transactions in place of earlier ones: steps 1 to 3 of 13 R461. -/
def State.stage (s : State) (ts : List Txn) : State :=
  let (n, l) := ts.foldl (fun (a : Nv × List Txn) t =>
    let (n, t) := a.1.stageAll t
    (n, a.2 ++ [t])) ({ s.nv with nextTxn := s.nv.nextTxn + ts.length }, [])
  { s with nv := { n with staged := l } }

/-! ## Unlock tokens and levels (R526, R527, R532) -/

/-- A debug level that R532 permits now. -/
def State.levelPermitted (s : State) (level : Nat) : Bool :=
  s.pwr.state != .off && decide (level ≤ 2) && (level != 2 || decide (s.nv.secState ≤ 1) || s.dbg.tokenValid)

/-- Whether a token is accepted. -/
def State.tokenOk (s : State) (t : List Byte) : Bool :=
  let key := if s.nv.secState = 3 then Config.debugKey else s.nv.running.keyTable.take 512
  decide (t.length = 640 ∧ fld t 0 8 = 0x314E454B4F545141 ∧ fld t 8 1 = 2 ∧ 2 ≤ s.nv.secState)
    && zeroAt t 9 7 && zeroAt t 0x18 0x28 && fld t 0x10 8 == (Config.nonce s.dbg.nonceAt).toNat
    && (t.drop 0x40).take 64 == sha512 s.nv.idModulus
    && (s.nv.secState == 3 || s.nv.isOwner key) && rsaVerify key ((t.drop 0x80).take 512) (t.take 0x80)

end Sys2Proof.Machine
end

