-- ==== Sys2Proof/Machine/Flags.lean ====
section
/-! DEFINITION. The block has no processor flags. What stands in their place is the set of sticky bits that commands raise: fault bits
of a plot (02 R96), ALERT_SRC (15 R512), PWR_EVENTS (14 R485); their one setter each stands in PlotOps.lean and Ops.lean. -/

namespace Sys2Proof.Machine

/-- Write-one-to-clear (00 R8). -/
def w1c {n : Nat} (old written : BitVec n) : BitVec n := old &&& ~~~written

end Sys2Proof.Machine
end

