-- ==== Sys2Proof/Machine/SpaceRegs.lean ====
section
/-! DEFINITION. The registers outside the plots: the control spaces of fields (spec/08 R295, spec/13 R458, spec/14 R486), controllers (spec/09
R340), ports (spec/11 R402) and the transit switch (R390), and BAR0 (spec/15 R490, spec/01 R40, spec/11 R376, R377, spec/12 R409, R417, spec/14
R485, spec/16 R522). Reads are functions of the state; what a write does is here, the commands are in Registers.lean. -/

namespace Sys2Proof.Machine

/-! ## Control spaces as they read -/

/-- Counters at `base`, their wrap bits behind them, the latches 0x40 beyond (02 R103). -/
def Bank.word (b : Bank) (base off : Nat) : Option Nat :=
  let n := b.now.length
  if base ≤ off ∧ off < base + 4 * n then some ((b.now[(off - base) / 4]?).getD 0)
  else if off = base + 4 * n then some b.wrap
  else if base + 0x40 ≤ off ∧ off < base + 0x40 + 4 * n then some ((b.lat[(off - base - 0x40) / 4]?).getD 0)
  else if off = base + 0x40 + 4 * n then some b.latWrap
  else none

/-- Plots of a field now in FAULTED (R458). -/
def State.faultedIn (s : State) (f : Nat) : Nat :=
  (s.plots.filter fun pp => fieldOfPhys pp.1 == f && pp.2.st == .faulted).length

def State.fieldWord (s : State) (f off : Nat) : Nat :=
  let v := s.field f
  match v.net.word 0x004 off with
  | some n => n
  | none =>
    match v.pwr.word 0x210 off with
    | some n => n
    | none =>
      if off = 0x000 then v.side.toNat + bit v.auto 4
      else if off = 0x080 then bit v.pending 0 + s.faultedIn f * 2 ^ 16
      else if off = 0x084 then v.first.toNat
      else if 0x100 ≤ off ∧ off < 0x1C0 then
        let e := (v.route[(off - 0x100) / 4]?).getD (0, false)
        e.1 + bit e.2 6
      else if off = 0x200 then
        v.point + v.hint * 8 + bit v.hintValid 6 + v.fixPoint * 2 ^ 7 + bit v.fixed 10 + bit v.squalled 11
      else if off = 0x204 then v.vdd + v.trim * 2 ^ 12
      else if off = 0x208 then v.hottest + v.sensor * 2 ^ 8
      else if off = 0x20C then v.watts
      else 0

/-- The word of a controller register. EMC_STATUS.SELF_REFRESH has 0 in its After reset column (09 R340, 00 R10): until S6 is over it does not show that a Warm
reset keeps the stacks in self-refresh (12 R408, R411; log entry 89). -/
def State.emcWord (s : State) (c off : Nat) : Nat :=
  let e := s.emc c
  match e.cnt.word 0x010 off with
  | some n => n
  | none =>
    match off with
    | 0x000 =>
      bit e.trained 0 + bit e.retired 1 + bit e.hot 2 + bit e.crit 3 + bit (e.selfRefresh && decide (7 ≤ s.clk.stage)) 4 + bit (e.window != 0) 5 + e.temp * 2 ^ 8
    | 0x004 => e.holders.length + e.pool.length * 2 ^ 12 + e.rim * 2 ^ 24
    | 0x008 => e.asks.length
    | 0x00C => e.shasks.length
    | 0x080 => bit e.retire 0 + bit e.scrubEn 1
    | _ => 0

/-- Codes of R391. -/
def LinkState.code : LinkState → Nat
  | .off => 0
  | .detect => 1
  | .equalise => 2
  | .laneMap => 3
  | .identify => 4
  | .unnamed => 5
  | .conflict => 6
  | .mismatch => 7
  | .active => 8
  | .retrain => 9
  | .down => 10

def State.portWord (s : State) (p off : Nat) : Nat :=
  let v := s.port p
  match v.cnt.word 0x010 off with
  | some n => n
  | none =>
    match off with
    | 0x000 =>
      v.st.code + v.width * 2 ^ 4 + v.group * 2 ^ 6 + bit v.reversed 8 + bit v.los 9 + v.peerRole * 2 ^ 10 + v.peerDevice * 2 ^ 14
    | 0x004 => v.polarity.toNat + v.failed.toNat * 2 ^ 16
    | 0x008 => v.rtt
    | 0x028 => half v.lostSrc false
    | 0x02C => half v.lostSrc true
    | 0x080 => bit v.disable 0 + v.minWidth * 4
    | _ => 0

def State.switchWord (s : State) (off : Nat) : Nat := (cellGet 0 s.regs.modroute (off / 4)).toNat

/-! ## BAR0 as it reads -/

/-- Codes of PWR_STATE (R485); Off is not produced there. -/
def Power.code : Power → Nat
  | .off => 0
  | .standby => 1
  | .idle => 2
  | .active => 3
  | .squall => 4

def State.devStatus (s : State) : Nat :=
  let up (f : Processor → Bool) : Nat := (s.procs.zipIdx).foldl (fun n pi => n + bit (f pi.1) pi.2) 0
  s.clk.stage + bit s.clk.ready 4 + up (·.up) * 2 ^ 5 + up (·.restarting) * 2 ^ 9 + bit s.hif.ringSet 13 + bit s.hif.badAccess 14

def State.pwrState (s : State) : Nat :=
  s.pwr.state.code + s.pwr.causes.toNat * 8 + bit s.nvBlocked 9 + bit (s.fields.any (·.fixed)) 10 + s.pwr.netPoint * 2 ^ 11

def State.coolantWord (s : State) : Nat := s.pwr.inlet % 256 + s.pwr.outlet % 256 * 2 ^ 8 + s.pwr.flow % 4096 * 2 ^ 16

def State.powerWord (s : State) (off : Nat) : Nat :=
  let lo (n : Nat) : Nat := n % 2 ^ 32
  let hi (n : Nat) : Nat := n / 2 ^ 32 % 2 ^ 32
  match off with
  | 0x00 => s.pwrState
  | 0x04 => s.pwr.events.toNat
  | 0x08 => s.pwr.mainMv % 65536 + s.pwr.standbyMv % 65536 * 2 ^ 16
  | 0x0C => s.pwr.mainW % 65536 + s.pwr.avgW % 65536 * 2 ^ 16
  | 0x10 => s.pwr.sustain % 65536 + s.pwr.inForce % 65536 * 2 ^ 16
  | 0x14 => s.coolantWord
  | 0x18 => lo s.pwr.energy
  | 0x1C => hi s.pwr.energy
  | 0x40 => lo s.pwr.epochEnergy
  | 0x44 => hi s.pwr.epochEnergy
  | 0x48 => s.pwr.epochPeakW % 65536 + s.pwr.epochPeakC % 256 * 2 ^ 16
  | 0x50 => lo s.pwr.epochSquall
  | 0x54 => hi s.pwr.epochSquall
  | _ => 0

/-- A stage record (R417). -/
def Stage.bytes (g : Stage) (n : Nat) : List Byte :=
  leBytes 1 n ++ leBytes 1 g.result ++ leBytes 2 g.reason ++ leBytes 1 g.level ++ zeros 3 ++ leBytes 8 g.start ++ leBytes 8 g.stop
    ++ g.detail.flatMap (leBytes 8) ++ zeros 8

def State.stageBytes (s : State) (n : Nat) : List Byte := ((s.clk.stages[n]?).getD Stage.reset).bytes n

/-- A 16-bit two's complement field of A_VS_B. -/
def signed16 (i : Int) : Nat := (i % 65536).toNat

def State.clkStatus (s : State) : Nat :=
  s.clk.source + bit s.clk.aLost 2 + bit s.clk.bLost 3 + bit s.clk.aGood 4 + bit s.clk.bGood 5 + signed16 s.clk.aVsB * 2 ^ 16

def State.resetCause (s : State) : Nat :=
  s.clk.cause + s.clk.level * 4 + bit s.clk.ignored 3 + s.clk.ignoredCount * 2 ^ 4 + s.clk.widthMs * 2 ^ 24

def State.secStateWord (s : State) : Nat :=
  s.nv.secState + s.dbg.level * 4 + bit s.dbg.invasiveUsed 4 + bit s.dbg.tokenValid 5 + bit s.dbg.suspended 6
    + (s.nv.fuse 2).toNat % 256 * 2 ^ 8 + s.nv.fusedSvn * 2 ^ 16

def State.idDigest (s : State) : List Byte := sha512 s.nv.idModulus

def State.nonce (s : State) : W64 := Config.nonce s.dbg.nonceAt

/-- HIF_VERSION (R493). -/
def hifVersion : Nat := 0x100

def State.identityWord (s : State) (off : Nat) : Nat :=
  if off = 0x200 then s.secStateWord
  else if off = 0x208 then half s.nonce false
  else if off = 0x20C then half s.nonce true
  else if 0x240 ≤ off ∧ off < 0x280 then leNat ((s.idDigest.drop (off - 0x240)).take 4)
  else if 0x400 ≤ off ∧ off < 0x600 then leNat ((s.nv.idModulus.drop (off - 0x400)).take 4)
  else 0

/-- Registers in the legend and identity area. -/
def State.legendWord (s : State) (off : Nat) : Nat :=
  match off with
  | 0x000 => hifVersion
  | 0x100 => s.regs.device + bit s.regs.placeRefused 16
  | 0x104 => s.regs.torus.toNat + bit s.regs.torusRefused 16
  | 0x108 => half s.regs.role false
  | 0x10C => half s.regs.role true
  | 0x110 => s.resetCause
  | 0x114 => bit ((s.nv.fuse 3).getLsbD 0) 0
  | 0x118 => s.clkStatus
  | _ => if 0x040 ≤ off ∧ off < 0x080 then leNat ((s.hif.legend.drop (off - 0x40)).take 4) else s.identityWord off

def Hif.msixWord (h : Hif) (off : Nat) : Nat :=
  match h.msix[off / 16]? with
  | none => 0
  | some m => match off / 4 % 4 with
    | 0 => half m.addr false
    | 1 => half m.addr true
    | 2 => m.data.toNat
    | _ => m.ctl.toNat

def State.statusWord (s : State) (off : Nat) : Nat :=
  match off with
  | 0x00 => s.devStatus
  | 0x08 => s.hif.next
  | 0x10 => ((s.proc .compass).restarts) + (s.proc .alidade).restarts * 2 ^ 16
  | 0x14 => ((s.proc .theodolite).restarts) + (s.proc .isobar).restarts * 2 ^ 16
  | 0x18 => s.hif.backlog.length
  | 0x1C => s.hif.lostCount
  | _ => 0

/-- A 32-bit word of BAR0 outside the paged window. -/
def State.bar0Word (s : State) (off : Nat) : Nat :=
  if off < 0x100000 then leNat (cellsRead s.hif.ledger off 4)
  else if off < 0x100800 then s.statusWord (off - 0x100000)
  else if off < 0x101000 then s.powerWord (off - 0x100800)
  else if off < 0x101240 then leNat (((s.stageBytes ((off - 0x101000) / 64)).drop (off % 64)).take 4)
  else if off = 0x200000 then s.regs.epoch % 2 ^ 32
  else if off = 0x200004 then s.regs.epoch / 2 ^ 32
  else if 0x201000 ≤ off ∧ off < 0x203000 then leNat (cellsRead s.regs.records (off - 0x201000) 4)
  else if 0x300000 ≤ off ∧ off < 0x301000 then s.legendWord (off - 0x300000)
  else if 0x310000 ≤ off ∧ off < 0x311000 then (cellGet 0 s.hif.cwin ((off - 0x310000) / 4)).toNat
  else if 0x320000 ≤ off ∧ off < 0x320400 then s.hif.msixWord (off - 0x320000)
  else if off = 0x321000 then half s.hif.msixPending false
  else if off = 0x321004 then half s.hif.msixPending true
  else 0

/-! ## What writes do outside BAR0 -/

/-- Invasive debug acts (16 R525, R531). -/
def State.invasive (s : State) : Bool := decide (s.dbg.level = 2) && !s.dbg.suspended

def State.markInvasive (s : State) : State := { s with dbg := { s.dbg with invasiveUsed := true } }

/-- FENCE, set or cleared (12 R426, 10 R373): only for a plot not marked dead is it cleared. -/
def State.fenceWrite (s : State) (phys : Nat) (on : Bool) : State :=
  let p := s.plot phys
  if on then (if p.fence then s else (s.fencePlot phys).survey Survey.bump)
  else if !p.fence || p.test.dead || s.isDead phys then s
  else (s.setPlot phys { p with fence := false, st := .idle }).survey Survey.bump

/-- HALT_REQ (02 R93, 16 R525): without Invasive it has no effect. -/
def State.haltWrite (s : State) (phys : Nat) (on : Bool) : State :=
  let p := s.plot phys
  if !s.invasive || p.haltReq == on then s
  else (s.setPlot phys ({ p with haltReq := on, seq := { p.seq with halted := on, stepOne := p.seq.stepOne && on } }).noteQuiet).markInvasive

/-- STEP (02 R93): while halted, one operation issues. -/
def State.stepWrite (s : State) (phys : Nat) : State :=
  let p := s.plot phys
  if !s.invasive || !p.seq.halted then s else (s.setPlot phys { p with seq := { p.seq with stepOne := true } }).markInvasive

/-- PLOT_CTRL (02 R93). -/
def State.plotCtrlWrite (s : State) (phys x : Nat) : State :=
  let p := s.plot phys
  let s := s.setPlot phys { p with nanTrap := x.testBit 0, underSurvey := x.testBit 4 }
  let s := s.haltWrite phys (x.testBit 1)
  let s := if x.testBit 2 then s.stepWrite phys else s
  s.fenceWrite phys (x.testBit 3)

/-- A write of 4 or 8 bytes to a plot's control space (02 R88, R89, 16 R528); one that the plot refuses in either half has no effect (08 R298). -/
def State.plotWrite (s : State) (phys off n : Nat) (x : W64) : State :=
  let word (s : State) (off v : Nat) : State :=
    if off = 0x00C then s.plotCtrlWrite phys v
    else
      let p := s.plot phys
      let s' := s.putPlot phys p (p.regWrite (s.view phys) off 4 (BitVec.ofNat 64 v))
      if (p.st == .running || p.st == .draining) && p.seq.halted && s.invasive && refusedWhileRunning off then s'.markInvasive else s'
  let q := s.plot phys
  if !s.powered (fieldOfPhys phys) then s
  else if q.refuses (s.view phys) off || (n == 8 && q.refuses (s.view phys) (off + 4)) then s.putPlot phys q { q with writeRefused := true }
  else if 0xC80 ≤ off ∧ off < 0xCC0 ∧ n = 8 then
    let p := s.plot phys
    let s' := s.putPlot phys p (p.regWrite (s.view phys) off 8 x)
    if (p.st == .running || p.st == .draining) && p.seq.halted && s.invasive then s'.markInvasive else s'
  else
    let s := word s off (half x false)
    if n = 8 then word s (off + 4) (half x true) else s

/-- A read of 4 or 8 bytes of a plot's control space. -/
def State.plotRead (s : State) (phys off n : Nat) : State × List Byte :=
  let p := s.plot phys
  let (p', b) := p.regRead (s.view phys) off n
  (s.putPlot phys p p', b)

def State.fieldWrite (s : State) (f off x : Nat) : State :=
  let v := s.field f
  match off with
  | 0x000 =>
    let side := BitVec.ofNat 4 x
    let fenced := v.supply || side == 15
    let s' := s.setField f { v with side := side, auto := v.auto && !x.testBit 4, fenced := fenced }
    if fenced && !v.fenced then s'.survey Survey.bump else s'
  | 0x080 => if x.testBit 0 then s.setField f { v with pending := false } else s
  | 0x200 =>
    let v := { v with fixPoint := bitsOf x 9 7, fixed := x.testBit 10 }
    s.setField f (if v.fixed && v.live && s.pwr.state != .squall then v.toPoint v.fixAt else v)
  | _ =>
    if 0x100 ≤ off ∧ off < 0x1C0 then s.setField f { v with route := v.route.set ((off - 0x100) / 4) (x % 64, x.testBit 6) }
    else s

/-- EMC_CTRL (R340): RETIRE is cleared by a Cold reset only. -/
def State.emcWrite (s : State) (c off x : Nat) : State :=
  if off ≠ 0x080 then s
  else
    let e := s.emc c
    let s := s.setEmc c { e with scrubEn := x.testBit 1, retire := e.retire || x.testBit 0 }
    if x.testBit 0 then s.retireStack c else s

/-- WG_CTRL (11 R402). -/
def State.portWrite (s : State) (p off x : Nat) : State :=
  if off ≠ 0x080 then s
  else
    let v := s.port p
    let s := s.setPort p { v with disable := x.testBit 0, minWidth := if bitsOf x 3 2 = 0 then v.minWidth else bitsOf x 3 2 }
    let s := s.applyEnable p
    if x.testBit 1 then s.retrain p else s

def State.switchWrite (s : State) (off x : Nat) : State :=
  { s with regs := { s.regs with modroute := cellSet 0 (off / 4) (BitVec.ofNat 32 (x % 4096)) s.regs.modroute } }

/-! ## What writes do in BAR0 -/

/-- PLACE (01 R40, R41, 11 R377). -/
def State.placeWrite (s : State) (x : Nat) : State :=
  let r := s.regs
  let r := { r with placeRefused := r.placeRefused && !x.testBit 16 }
  if !s.parcels.isEmpty then { s with regs := { r with placeRefused := true } }
  else ({ s with regs := { r with device := x % 1024, written := true } }).reidentify

/-- TORUS (11 R377). -/
def State.torusSet (s : State) (x : Nat) : State :=
  let r := s.regs
  let r := { r with torusRefused := r.torusRefused && !x.testBit 16 }
  if !s.parcels.isEmpty then { s with regs := { r with torusRefused := true } }
  else ({ s with regs := { r with torus := BitVec.ofNat 13 x } }).reidentify

/-- Roles of a written PORT_ROLE (00 R12, 11 R376): the table gives one field of 64 bits and not what a reserved role code leaves; the model takes each port's
four bits as a field of its own (DESIGN CHOICE, log entry 93). -/
def mergeRoles (old new : W64) : W64 :=
  BitVec.ofNat 64 ((List.range 16).foldl (fun n i =>
    let r := bitsOf new.toNat (4 * i + 3) (4 * i)
    n + (if r < 8 then r else bitsOf old.toNat (4 * i + 3) (4 * i)) * 2 ^ (4 * i)) 0)

/-- PORT_ROLE (11 R376, R377). -/
def State.roleSet (s : State) (v : W64) : State :=
  if !s.parcels.isEmpty then { s with regs := { s.regs with torusRefused := true } }
  else
    let before := s
    let s := { s with regs := { s.regs with role := mergeRoles s.regs.role v } }
    (s.noteRoles before).reidentify.applyPorts

/-- The coolant allowance (14 R473), in W. -/
def allowance (inlet flowTenths : Nat) : Nat :=
  let a := if inlet ≤ 35 then 40000 else 40000 - 800 * (min inlet 47 - 35)
  if flowTenths < 600 then a * flowTenths / 600 else a

/-- The allowance of the readings in force; before the first one nothing is derated (log entry 52). -/
def Pwr.allowed (p : Pwr) : Nat := if p.coolant then allowance p.inlet p.flow else 40000

/-- SUSTAIN_W (14 R465): a value outside 1,000 to 40,000 leaves it. -/
def State.budgetWrite (s : State) (w : Nat) : State :=
  if w < 1000 ∨ 40000 < w then s
  else { s with pwr := { s.pwr with sustain := w, inForce := min w s.pwr.allowed } }

/-- CWIN_SEL (08 R299). -/
def State.cwinWrite (s : State) (n x : Nat) : State :=
  let old := (cellGet 0 s.hif.cwin n).toNat
  let v := x % 2 ^ 23 + bit (old.testBit 23 && !x.testBit 23) 23
  { s with hif := { s.hif with cwin := cellSet 0 n (BitVec.ofNat 32 v) s.hif.cwin } }

/-- The MSI-X table: unmasking a vector whose bit is pending sends its message. -/
def Hif.msixWrite (h : Hif) (off x : Nat) : Hif :=
  let n := off / 16
  match h.msix[n]? with
  | none => h
  | some m =>
    let m := match off / 4 % 4 with
      | 0 => { m with addr := putHalf m.addr false x }
      | 1 => { m with addr := putHalf m.addr true x }
      | 2 => { m with data := BitVec.ofNat 32 x }
      | _ => { m with ctl := BitVec.ofNat 32 (x % 2) }
    let h := { h with msix := h.msix.set n m }
    if h.msixPending.getLsbD n && !m.ctl.getLsbD 0 && h.busMaster then h.interrupt n else h

/-- A 4-byte write of BAR0 outside the ledger and the paged window; read-only and reserved words take nothing. -/
def State.bar0Write (s : State) (off x : Nat) : State :=
  if 0x310000 ≤ off ∧ off < 0x311000 then s.cwinWrite ((off - 0x310000) / 4) x
  else if 0x320000 ≤ off ∧ off < 0x320400 then { s with hif := s.hif.msixWrite (off - 0x320000) x }
  else if 0x300040 ≤ off ∧ off < 0x300080 then
    let o := off - 0x300040
    { s with hif := { s.hif with legend := s.hif.legend.take o ++ leBytes 4 x ++ s.hif.legend.drop (o + 4) } }
  else
    match off with
    | 0x100000 => { s with hif := { s.hif with badAccess := s.hif.badAccess && !x.testBit 14 } }
    | 0x100804 => { s with pwr := { s.pwr with events := w1c s.pwr.events (BitVec.ofNat 8 x) } }
    | 0x100810 => s.budgetWrite (x % 65536)
    | 0x300100 => s.placeWrite x
    | 0x300104 => s.torusSet x
    | 0x300108 => s.roleSet (putHalf s.regs.role false x)
    | 0x30010C => s.roleSet (putHalf s.regs.role true x)
    | 0x300110 => { s with clk := { s.clk with ignored := s.clk.ignored && !x.testBit 3 } }
    | 0x300118 =>
      { s with clk := { s.clk with aLost := s.clk.aLost && !x.testBit 2, bLost := s.clk.bLost && !x.testBit 3 } }
    | _ => s

/-- A word of configuration space: vendor and device are not given; the class code; else what the host has written (15 R487; the PCI Express layout, log
entry 6). -/
def Hif.configWord (h : Hif) (off : Nat) : Nat := if off = 8 then 0x120000 * 2 ^ 8 else leNat (cellsRead h.config off 4)

/-- A write of configuration space. Bus Master Enable is bit 2 of the Command register at offset 4 (15 R489; the PCI Express layout, log entry 6). -/
def State.configWrite (s : State) (off x : Nat) : State :=
  let s := { s with hif := { s.hif with config := cellsWrite s.hif.config off (leBytes 4 x) } }
  if off ≠ 4 then s
  else
    let s := { s with hif := { s.hif with busMaster := x.testBit 2 } }
    s.drainBacklog (s.hif.backlog.length + 1)

end Sys2Proof.Machine
end

