-- ==== Sys2Proof/Machine/Registers.lean ====
section
/-! DEFINITION. Register accesses as commands (spec/00 R8-R12, spec/02 R89, R93, R98, R99, spec/08 R298, R299, spec/15 R491, R493 and the rules
SpaceRegs.lean names). -/

namespace Sys2Proof.Machine

/-- Two 32-bit writes in address order make up an 8-byte one. -/
def twoWords (s : State) (off n : Nat) (x : W64) (f : State → Nat → Nat → State) : State :=
  let s := f s off (half x false)
  if n = 8 then f s (off + 4) (half x true) else s

/-- An access by the host: none comes through while it does not reach the module (13 R456, 01 R36, 12 R416). -/
def State.byHost (s : State) (r : Host.Outcome State Fault Refusal) : Host.Outcome State Fault Refusal := if s.hostUp then r else .next s

/-- The processor that alone writes a control space outside the plots (15 R505): Isobar the fix of a field's point, Theodolite the rest. -/
def regWriter : RegTarget → Option Proc
  | .field _ off => some (if off / 4 = 0x80 then .isobar else .theodolite)
  | .emc _ _ => some .theodolite
  | .port _ _ => some .theodolite
  | .switch _ => some .theodolite
  | _ => none

/-- A register of a processor's own is written only while that processor is at work (15 R505, R507). -/
def State.canWrite (s : State) (t : RegTarget) : Bool := ((regWriter t).map s.serves).getD true

/-- 00 R8, R11, R12, 15 R491, R492, R505. An access of another size or alignment takes no effect here (`execBadAccess`). A part whose power is
off takes nothing (01 R36). -/
def execRegisterWrite (target : RegTarget) (data : List Byte) (s : State) : Host.Outcome State Fault Refusal :=
  let value : W64 := BitVec.ofNat 64 (leNat data)
  let size := data.length
  if !target.ok || !target.sizeOk size || !s.canWrite target then .next s
  else match target with
    | .bar0 off =>
      if off + size ≤ 0x100000 then
        s.byHost (.next { s with hif := { s.hif with ledger := cellsWrite s.hif.ledger off data } })
      else if 0x1000000 ≤ off then .next s
      else s.byHost (.next (twoWords s off size value State.bar0Write))
    | .config off => s.byHost (.next (twoWords s off size value State.configWrite))
    | .plot phys off => .next (s.plotWrite phys off size value)
    | .field f off => .next (if s.powered f = false then s else twoWords s off size value fun s o x => s.fieldWrite f o x)
    | .emc c off => .next (if s.emcUp c then twoWords s off size value fun s o x => s.emcWrite c o x else s)
    | .port p off => .next (if s.portUp p then twoWords s off size value fun s o x => s.portWrite p o x else s)
    | .switch off => .next (if s.clk.link.up then twoWords s off size value State.switchWrite else s)

/-! ## The paged window (08 R298) -/

/-- The physical plot that a page selects, and whether by physical position; none for a page that is not enabled or selects no plot. -/
def State.pagePlot (s : State) (page : Nat) : Option (Nat × Bool) :=
  let w := (cellGet 0 s.hif.cwin page).toNat
  let x := bitsOf w 10 0
  let y := bitsOf w 20 11
  if !w.testBit 22 then none
  else if w.testBit 21 then (if x < 1248 ∧ y < 768 then some (1248 * y + x, true) else none)
  else if onGrid x y then some (s.phys x y, false) else none

/-- A page sets FAILED. -/
def State.pageFailed (s : State) (page : Nat) : State :=
  let w := cellGet 0 s.hif.cwin page
  { s with hif := { s.hif with cwin := cellSet 0 page (w ||| BitVec.ofNat 32 (2 ^ 23)) s.hif.cwin } }

/-- The plot an access through a page reaches; none when it fails before the plot (R298, 16 R525). -/
def State.pageReach (s : State) (page : Nat) (level : Bool) (way : Cirrus) : Option Nat :=
  match s.pagePlot page with
  | none => none
  | some (ph, byPhys) =>
    let f := fieldOfPhys ph
    let ok := if byPhys then s.powered f && level else s.alive ph && !(s.field f).fenced
    if ok && way == .answered then some ph else none

/-- A packet with a parity error is discarded and counted in its field (R296). -/
def State.parityCount (s : State) (page : Nat) (way : Cirrus) : State :=
  match way, s.pagePlot page with
  | .parity, some (ph, _) => s.countNet (fieldOfPhys ph) 3 1
  | _, _ => s

def onesBytes (n : Nat) : List Byte := List.replicate n 0xFF

/-- One access of 4 or 8 bytes through a page: the state and the bytes read (08 R298, R296, 16 R525). -/
def State.pageRead (s : State) (page off size : Nat) (way : Cirrus) : State × List Byte :=
  match s.pageReach page (decide (1 ≤ s.dbg.level)) way with
  | none => ((s.parityCount page way).pageFailed page, onesBytes size)
  | some ph => s.plotRead ph off size

/-- One access of 4 or 8 bytes through a page (08 R298, R296, 02 R89, 16 R525). -/
def State.pageWrite (s : State) (page off : Nat) (data : List Byte) (way : Cirrus) : State :=
  match s.pageReach page s.invasive way with
  | none => (s.parityCount page way).pageFailed page
  | some ph =>
    let byPhys := match s.pagePlot page with
      | some (_, b) => b
      | none => false
    let p := s.plot ph
    let refused := p.refuses (s.view ph) off || (data.length == 8 && p.refuses (s.view ph) (off + 4))
    let s := s.plotWrite ph off data.length (BitVec.ofNat 64 (leNat data))
    let s := if byPhys && !refused then s.markInvasive else s
    if refused then s.pageFailed page else s

/-- The accesses of 4 or 8 bytes that an access through a page is split into, in address order (08 R298); the fuel is at least their
number. -/
def pagePieces : Nat → Nat → Nat → List (Nat × Nat)
  | 0, _, _ => []
  | n + 1, off, size =>
    if size = 0 then []
    else
      let k := if off % 8 = 0 ∧ 8 ≤ size then 8 else 4
      (off, k) :: pagePieces n (off + k) (size - k)

/-- 08 R298. -/
def execPagedRead (page off size : Nat) (way : Cirrus) (s : State) : Host.Outcome State Fault Refusal :=
  if !pageSpanOk off size || !s.hostUp then .next s
  else
    let (s, b) := (pagePieces size off size).foldl (fun (acc : State × List Byte) ok =>
      let (s, b) := acc.1.pageRead page ok.1 ok.2 way
      (s, acc.2 ++ b)) (s, [])
    .next { s with out := b }

/-- 08 R298. -/
def execPagedWrite (page off : Nat) (data : List Byte) (way : Cirrus) (s : State) : Host.Outcome State Fault Refusal :=
  if !pageSpanOk off data.length || !s.hostUp then .next s
  else .next ((pagePieces data.length off data.length).foldl (fun (s : State) ok =>
    s.pageWrite page ok.1 ((data.drop (ok.1 - off)).take ok.2) way) s)

/-- 08 R299. -/
def execCwinSelWrite (n : Nat) (value : W32) (s : State) : Host.Outcome State Fault Refusal :=
  s.byHost (.next (if 1024 ≤ n then s else s.cwinWrite n value.toNat))

/-! ## Windows of a plot (02 R98, R99) -/

/-- 02 R99, 09 R313; an unpowered plot answers all ones. -/
def execMemWindowRead (phys off size : Nat) (s : State) : Host.Outcome State Fault Refusal :=
  if !physOk phys || !spanOk 64 off size then .next s
  else if !s.powered (fieldOfPhys phys) then .next { s with out := onesBytes size }
  else
    let (s, b) := s.plotRead phys (0xC80 + off) size
    .next { s with out := b }

/-- 02 R99, R89, 09 R313. -/
def execMemWindowWrite (phys off size : Nat) (value : W64) (s : State) : Host.Outcome State Fault Refusal :=
  .next (if !physOk phys || !spanOk 64 off size then s else s.plotWrite phys (0xC80 + off) size value)

/-- 02 R98, R89, 04 R155. -/
def execAccDataWrite (phys off size : Nat) (value : W64) (s : State) : Host.Outcome State Fault Refusal :=
  .next (if !physOk phys || !spanOk 16 off size then s else s.plotWrite phys (0xC10 + off) size value)

/-! ## PLOT_CTRL (02 R93) -/

/-- 02 R93, 16 R525, R528, R531. -/
def execHaltReq (phys : Nat) (value : Bool) (s : State) : Host.Outcome State Fault Refusal :=
  .next (if !physOk phys || !s.powered (fieldOfPhys phys) then s else s.haltWrite phys value)

/-- 02 R93. -/
def execStep (phys : Nat) (s : State) : Host.Outcome State Fault Refusal :=
  .next (if !physOk phys || !s.powered (fieldOfPhys phys) then s else s.stepWrite phys)

/-- 08 R293, 12 R426, 13 R437, 10 R373. -/
def execFenceSet (phys : Nat) (s : State) : Host.Outcome State Fault Refusal :=
  .next (if !physOk phys || !s.powered (fieldOfPhys phys) then s else s.fenceWrite phys true)

/-- 12 R426, 10 R373. -/
def execFenceClear (phys : Nat) (s : State) : Host.Outcome State Fault Refusal :=
  .next (if !physOk phys || !s.powered (fieldOfPhys phys) then s else s.fenceWrite phys false)

/-! ## Module registers -/

/-- 01 R40, 11 R377. -/
def execPlaceDeviceIdWrite (value : W32) (s : State) : Host.Outcome State Fault Refusal := s.byHost (.next (s.placeWrite value.toNat))

/-- 11 R377. -/
def execTorusWrite (value : W32) (s : State) : Host.Outcome State Fault Refusal := s.byHost (.next (s.torusSet value.toNat))

/-- 11 R376, R377. -/
def execPortRoleWrite (value : W64) (s : State) : Host.Outcome State Fault Refusal := s.byHost (.next (s.roleSet value))

/-- 14 R465, R485. -/
def execPwrBudgetWrite (value : W32) (s : State) : Host.Outcome State Fault Refusal := s.byHost (.next (s.budgetWrite (value.toNat % 65536)))

/-- 09 R339, R340, 15 R505. -/
def execEmcRetireWrite (stack : Nat) (s : State) : Host.Outcome State Fault Refusal :=
  .next (if 24 ≤ stack || !s.emcUp stack || !s.serves .theodolite then s else (s.setEmc stack { s.emc stack with retire := true }).retireStack stack)

/-- 13 R458, 00 R9: VALID clears as it is read. A field without supply answers nothing (01 R36). -/
def execFieldFirstRead (field : Nat) (s : State) : Host.Outcome State Fault Refusal :=
  let v := s.field field
  .next <| if !s.powered field then s else { (s.setField field { v with first := v.first &&& ~~~(0x200000 : W32) }) with out := leBytes 4 v.first.toNat }

/-- 15 R491: any other access outside the paged window. -/
def execBadAccess (isWrite : Bool) (off len : Nat) (s : State) : Host.Outcome State Fault Refusal :=
  let ledger := decide (off + len ≤ 0x100000) && (!isWrite || decide (1 ≤ len ∧ len ≤ 256))
  let window := decide (0x1000000 ≤ off ∧ off < 0x1400000)
  if !s.hostUp || ledger || window || ((len == 4 || len == 8) && off % len == 0) then .next s
  else
    let s := { s with hif := { s.hif with badAccess := true } }
    .next (if isWrite then s else { s with out := onesBytes len })

end Sys2Proof.Machine
end

