-- ==== Sys2Proof/Machine/HostCmds.lean ====
section
/-! DEFINITION. Host commands other than those of parcels (spec/15 R497-R510, spec/16 R519-R527, spec/13 R449, R450, spec/12 R429, spec/14 R471). Each
acts on the command in turn of its opcode (log entry 2). -/

namespace Sys2Proof.Machine

/-! ## Ring and echo -/

/-- 15 R497, R498, R504: its completion is the first entry of the new ring; one that cannot be posted and finds the backlog full is lost. -/
def execRingSetup (s : State) : Host.Outcome State Fault Refusal :=
  match s.turn 0x01 with
  | none => .next s
  | some (c, s) =>
    let k := c.bits 1 4 0
    if c.w 0 % 4096 ≠ 0 ∨ c.w 2 % 65536 ≠ 0 ∨ k < 6 ∨ 16 < k ∨ 256 < c.w 3 then .next (s.complete c stBadCommand [])
    else
      let h := { s.hif with ringSet := true, base := c.w 0, log := k, vector := c.bits 1 13 8, poolBase := c.w 2, poolSlots := c.w 3, entry := 0 }
      let e := s.answer c 1 stOk [] none false
      match h.tryPost e with
      | some h => .next ({ s with hif := h }.drainBacklog (h.backlog.length + 2))
      | none => .next { s with hif := if 1024 ≤ h.backlog.length then { h with lostCount := min 0xFFFFFFFF (h.lostCount + 1), lostSince := h.lostSince + 1 }
          else { h with backlog := e :: h.backlog } }

/-- 15 R497. -/
def execEcho (s : State) : Host.Outcome State Fault Refusal :=
  match s.turn 0x1A with
  | none => .next s
  | some (c, s) => .next (s.complete c stOk [c.w 0])

/-! ## Epochs (15 R509, R510) -/

/-- Everything that latches at an epoch boundary but the plots. -/
def State.latchRim (s : State) : State :=
  { s with
    fields := s.fields.map fun v => { v with net := v.net.latch, pwr := v.pwr.latch }
    emcs := s.emcs.map fun e => { e with cnt := e.cnt.latch }
    ports := s.ports.map fun p => { p with cnt := p.cnt.latch }
    pwr := { s.pwr with
      epochEnergy := s.pwr.energyRun, epochPeakW := s.pwr.peakRun, epochPeakC := s.pwr.hotRun, epochSquall := s.pwr.squallRun
      energyRun := 0, peakRun := 0, hotRun := 0, squallRun := 0 } }

/-- Every plot of every field that is not fenced latches, by one broadcast (08 R300). -/
def State.latchPlots (s : State) (epoch : Nat) : State :=
  let s := s.broadcast .all fun _ p => p.latch epoch
  { s with regs := { s.regs with seen := (s.regs.seen.zipIdx).map fun ef => if s.powered ef.2 && !(s.field ef.2).fenced then epoch else ef.1 } }

/-- The epoch record. -/
def State.epochRecord (s : State) (epoch : Nat) : List Byte :=
  leBytes 8 epoch ++ leBytes 8 s.clk.count ++ leBytes 8 s.clk.count ++ zeros 40
    ++ (s.fields.flatMap fun v => leBytes 8 v.cycles) ++ zeros 64

def execEpochClose (s : State) : Host.Outcome State Fault Refusal :=
  match s.turn 0x0C with
  | none => .next s
  | some (c, s) =>
    let n := (s.regs.epoch / 65536 + 1) % 2 ^ 48
    let e := n * 65536
    let rec' := s.epochRecord e
    let s := (s.latchPlots e).latchRim
    let s := { s with regs := { s.regs with epoch := e, records := cellsWrite s.regs.records (0x200 * (n % 16)) rec' } }
    .next ((s.complete c stOk [e]).event 0x0A [e] none)

/-! ## Tests (13 R449, 12 R426) -/

/-- Physical plots of a TEST rectangle that can be tested: powered, not dead, not fenced. -/
def State.testPlots (s : State) (r : Rect) (byPhys : Bool) : List Nat :=
  ((r.plots.map fun q => if byPhys then 1248 * q.y + q.x else s.phys q.x q.y).filter fun ph => s.alive ph)

/-- Theodolite starts a test of an idle plot, a patrol test or another (12 R426). -/
def State.enterTest (s : State) (patrol : Bool) (ph : Nat) : State :=
  let s := s.setPlot ph { s.plot ph with st := .test }
  { s with svc := { s.svc with testing := s.svc.testing ++ [(ph, patrol)] } }

/-- No test of a plot runs any more. -/
def State.stopTest (s : State) (ph : Nat) : State :=
  { s with svc := { s.svc with testing := s.svc.testing.filter fun t => t.1 != ph } }

/-- The test of a plot is over; whether it is fenced then is the result's affair. -/
def State.endTest (s : State) (ph : Nat) : State :=
  let p := s.plot ph
  (if p.st == .test then s.setPlot ph { p with st := .idle } else s).stopTest ph

/-- A plot is in a test of this kind. -/
def State.inTest (s : State) (ph : Nat) (patrol : Bool) : Bool := (s.plot ph).st == .test && s.svc.testing.contains (ph, patrol)

/-- Count one more tested plot of a command. -/
def countTest (l : List (Cmd × Nat × Nat)) (c : Cmd) (bad : Bool) : List (Cmd × Nat × Nat) :=
  l.map fun e => if e.1 == c then (e.1, if bad then (e.2.1, e.2.2 + 1) else (e.2.1 + 1, e.2.2)) else e

/-- A test of a plot answers every request that waited for it or has joined it; the second completion of a command follows its last test (13
R449). -/
def State.answerTests (s : State) (ph : Nat) (bad : Bool) : State :=
  let cmds := (s.svc.tests.filter fun t => t.1 == ph).map (·.2)
  let s := { s with svc := { s.svc with tests := s.svc.tests.filter (fun t => t.1 != ph)
                                        counts := cmds.foldl (fun l c => countTest l c bad) s.svc.counts } }
  cmds.foldl (fun (s : State) c =>
    if s.svc.tests.any fun t => t.2 == c then s
    else match s.svc.counts.find? fun e => e.1 == c with
      | none => s
      | some e =>
        let s := { s with svc := { s.svc with counts := s.svc.counts.filter fun e => e.1 != c } }
        s.second c stOk [e.2.1, e.2.2]) s

/-- The end of one test: the plot leaves TEST with its block, and a failing plot is dead and FENCED (12 R426, R427). What the spec gives no value
for (the program's identity; the signature of a plot whose result is not at hand) is a free value. `first` says that no plot of the same command has
been found dead before it (10 R373). -/
def State.testPlot (s : State) (ph : Nat) (r : Option PlotTest) (first : Bool) : State :=
  let s := s.endTest ph
  let p := s.plot ph
  let prog : W32 := (Config.word s.freeCtr).truncate 32
  let sig : W32 := match r with
    | some t => t.sig
    | none => (Config.word (s.freeCtr + 1)).truncate 32
  let t : TestBlock := { p.test with done := true, selfFail := (r.map (·.selfFail)).getD false, nbFail := (r.map (·.nbFail)).getD 0
                                     links := (r.map (·.links)).getD 0, sig := sig, prog := prog }
  let s := ({ s with freeCtr := s.freeCtr + 2 }).setPlot ph { p with test := t }
  if t.selfFail then s.plotDeadIn ph first else s

/-- The plots that a command tests itself, in turn. -/
def State.testAll (s : State) (l : List Nat) (results : List PlotTest) : State :=
  (l.foldl (fun (a : State × Bool) ph =>
    let r := results.find? fun r => r.phys == ph
    (a.1.testPlot ph r a.2, a.2 && !(r.any (·.selfFail)))) (s, true)).1

/-- A rectangle of TEST: ordered ends on the logical or the physical grid. -/
def testRectOk (w : Nat) (byPhys : Bool) : Bool :=
  let r := rectOf w
  if byPhys then bitsOf w 31 21 == 0 && bitsOf w 63 53 == 0 && decide (r.x0 ≤ r.x1 ∧ r.x1 ≤ 1247 ∧ r.y0 ≤ r.y1 ∧ r.y1 ≤ 767) else rectOk w

/-- Counts of a tested rectangle: passed, failed. -/
def State.testCounts (s : State) (all : List Nat) : List Nat :=
  let bad := all.filter fun ph => (s.plot ph).test.selfFail
  [all.length - bad.length, bad.length]

/-- Plots that the command in turn tests itself: those of no parcel that are idle, or that it has put in TEST. -/
def State.testsItself (s : State) (ph : Nat) : Bool :=
  (s.plot ph).parcel == 0 && ((s.plot ph).st != .test || (s.inTest ph false && !s.svc.tests.any fun t => t.1 == ph))

/-- Requests that are queued: those of plots in TEST have joined the test there (13 R449). -/
def State.queuedTests (s : State) : List Nat := ((s.svc.tests.map (·.1)).eraseDups).filter fun ph => (s.plot ph).st != .test

/-- 13 R449, 12 R426: the idle plots of the rectangle first enter TEST, and their results end the command. -/
def execTest (results : Option (List PlotTest)) (s : State) : Host.Outcome State Fault Refusal :=
  match s.turn 0x0D with
  | none => .next s
  | some (c, t) =>
    let byPhys := c.flag 1 0
    if !testRectOk (c.w 0) byPhys then .next (t.complete c stBadCommand [])
    else
      let all := s.testPlots (rectOf (c.w 0)) byPhys
      let wait := all.filter fun ph => !s.testsItself ph
      let now := all.filter s.testsItself
      let fresh := now.filter fun ph => (s.plot ph).st != .test
      let queued := s.queuedTests
      let added := wait.filter fun ph => !queued.contains ph && (s.plot ph).st != .test
      if 1024 < queued.length + added.length then .next ((now.foldl State.endTest t).complete c stQueueFull [])
      else if !fresh.isEmpty then .next (fresh.foldl (State.enterTest · false) s)
      else if !now.isEmpty && results.isNone then .next s
      else
        let s := t.testAll now (results.getD [])
        if wait.isEmpty then .next (s.complete c stOk (s.testCounts all))
        else
          let got : Nat × Nat := ((s.testCounts now).headD 0, (s.testCounts now).getLastD 0)
          let s := { s with svc := { s.svc with tests := s.svc.tests ++ wait.map (fun ph => (ph, c)), counts := s.svc.counts ++ [(c, got)] } }
          .next (s.complete c stDeferred [])

/-- 13 R450, 09 R338: a stack's calibration is noted for the windows to come; a port's runs on live traffic. -/
def execCalibrate (s : State) : Host.Outcome State Fault Refusal :=
  match s.turn 0x0E with
  | none => .next s
  | some (c, s) =>
    let t := c.bits 0 5 0
    if t < 24 then .next ((s.setEmc t { s.emc t with calibrate := true }).complete c stOk [])
    else if 32 ≤ t ∧ t < 48 then
      .next (s.complete c (if (s.port (t - 32)).st == .active then stOk else stFailed) [])
    else .next (s.complete c stBadCommand [])

/-! ## Control spaces (15 R497) -/

/-- The words that READ_CTRL or WRITE_CTRL names: space, index, offset, number; none when it names nothing. -/
def ctrlTarget (c : Cmd) : Option (Nat × Nat × Nat × Nat) :=
  let space := c.bits 0 1 0
  let i := c.bits 0 15 8
  let off := c.bits 0 31 16
  let n := c.bits 0 34 32
  let limit := match space with
    | 0 => 48
    | 1 => 24
    | 2 => 16
    | _ => 1
  if i < limit ∧ 1 ≤ n ∧ n ≤ 4 ∧ off % 4 = 0 ∧ off + 4 * n ≤ 4096 then some (space, i, off, n) else none

def State.ctrlWordAt (s : State) (space i off : Nat) : Nat :=
  match space with
  | 0 => s.fieldWord i off
  | 1 => s.emcWord i off
  | 2 => s.portWord i off
  | _ => s.switchWord off

/-- Fields that clear as they are read (00 R8, R9): FIELD_FIRST.VALID, WG_LOST_SRC. A read of either 32-bit half of WG_LOST_SRC clears the whole field (DESIGN
CHOICE, log entry 92). -/
def State.ctrlClear (s : State) (space i off n : Nat) : State :=
  let hit (a : Nat) : Bool := decide (off ≤ a ∧ a < off + 4 * n)
  if space = 0 ∧ hit 0x084 = true then s.setField i { s.field i with first := (s.field i).first &&& ~~~(0x200000 : W32) }
  else if space = 2 ∧ (hit 0x028 || hit 0x02C) = true then s.setPort i { s.port i with lostSrc := 0 }
  else s

/-- A control space that can be reached: that of a part that is powered (01 R36). -/
def State.ctrlReach (s : State) (space i : Nat) : Bool :=
  match space with
  | 0 => s.powered i
  | 1 => s.emcUp i
  | 2 => s.portUp i
  | _ => s.clk.link.up

def execReadCtrl (s : State) : Host.Outcome State Fault Refusal :=
  match s.turn 0x0F with
  | none => .next s
  | some (c, s) =>
    match ctrlTarget c with
    | none => .next (s.complete c stBadCommand [])
    | some (space, i, off, n) =>
      if !s.ctrlReach space i then .next (s.complete c stFailed [])
      else
        let words := (List.range n).map fun k => s.ctrlWordAt space i (off + 4 * k)
        .next ((s.ctrlClear space i off n).complete c stOk words)

/-- Targets that WRITE_CTRL may write: EMC_CTRL, WG_CTRL, the W1C fields of a field's space. -/
def ctrlWritable (space off : Nat) : Bool :=
  match space with
  | 0 => off == 0x000 || off == 0x080
  | 1 => off == 0x080
  | 2 => off == 0x080
  | _ => false

/-- One word; FENCE_CTRL takes its W1C bit only. -/
def State.ctrlWriteAt (s : State) (space i off x : Nat) : State :=
  match space with
  | 0 => if off = 0 then (if x.testBit 4 then s.setField i { s.field i with auto := false } else s) else s.fieldWrite i off x
  | 1 => s.emcWrite i off x
  | 2 => s.portWrite i off x
  | _ => s

def execWriteCtrl (s : State) : Host.Outcome State Fault Refusal :=
  match s.turn 0x10 with
  | none => .next s
  | some (c, s) =>
    match ctrlTarget c with
    | none => .next (s.complete c stBadCommand [])
    | some (space, i, off, n) =>
      if !((List.range n).all fun k => ctrlWritable space (off + 4 * k)) then .next (s.complete c stBadCommand [])
      else if !s.ctrlReach space i then .next (s.complete c stFailed [])
      else
        let s := (List.range n).foldl (fun (s : State) k => s.ctrlWriteAt space i (off + 4 * k) (c.w (k + 1) % 2 ^ 32)) s
        .next (s.complete c stOk [])

/-! ## Fixed clocks (14 R471) -/

/-- Fields of a bitmap, changed. -/
def State.mapBitmap (s : State) (w : Nat) (f : Field → Field) : State :=
  { s with fields := (s.fields.zipIdx).map fun vi => if w.testBit vi.2 then f vi.1 else vi.1 }

def execFixClocks (s : State) : Host.Outcome State Fault Refusal :=
  match s.turn 0x11 with
  | none => .next s
  | some (c, s) =>
    let pt := c.bits 1 2 0
    let net := c.bits 1 5 3
    let squall := s.pwr.state == .squall
    let s := s.mapBitmap (c.w 0) fun v =>
      let v := { v with fixPoint := pt, fixed := true }
      if v.live && !squall then v.toPoint v.fixAt else v
    let s := { s with pwr := { s.pwr with netFixed := true, netFix := net, netPoint := if squall then s.pwr.netPoint else net } }
    .next (s.complete c stOk [])

/-- The network clock is free again when no field is fixed. -/
def execUnfixClocks (s : State) : Host.Outcome State Fault Refusal :=
  match s.turn 0x12 with
  | none => .next s
  | some (c, s) =>
    let s := s.mapBitmap (c.w 0) fun v => { v with fixed := false }
    let s := { s with pwr := { s.pwr with netFixed := s.fields.any (·.fixed) } }
    .next (s.complete c stOk [])

/-! ## Firmware and fuses (15 R508, 13 R461, 16 R519, R520, 12 R429) -/

/-- 15 R508: steps 1 to 3 of 13 R461. While a non-volatile block holds, or an earlier transaction is being carried out, the command waits: new data goes only
to places not in use, and no combination of old and new is ever used (13 R461, R463, 14 R482; DEDUCED, log entry 110). -/
def execFwStage (bundle : List Byte) (s : State) : Host.Outcome State Fault Refusal :=
  match s.turn 0x13 with
  | none => .next s
  | some (c, u) =>
    if bundle.isEmpty then .next (u.complete c stHostRead [])
    else if !bundleOk bundle (c.bits 1 31 0) then .next (u.complete c stFailed [])
    else
      let fuses := fld bundle 8 4 == 1
      if !(if fuses then s.nv.fusesPermitted bundle else s.nv.firmwarePermitted bundle) then .next (u.complete c stNotPermitted [])
      else
        .next (if s.nvBlocked || !s.nv.work.isEmpty then s
          else (u.stage (if fuses then s.nv.fuseTxns bundle else [s.nv.firmwareTxn bundle])).complete c stOk [s.nv.nextTxn])

def execFwActivate (s : State) : Host.Outcome State Fault Refusal :=
  match s.turn 0x14 with
  | none => .next s
  | some (c, s) =>
    match s.nv.staged with
    | [] => .next (s.complete c stFailed [])
    | t :: rest =>
      if t.num ≠ c.w 0 then .next (s.complete c stFailed [])
      else
        let s := s.complete c stDeferred []
        let ts := (t :: rest).map fun t => { t with cmd := some c }
        .next ({ s with nv := { s.nv with staged := [], work := s.nv.work ++ ts } }).runWork

/-- The recovery counter: blown bits of fuse word 4 [5:0] (16 R516; log entry 30). -/
def Nv.recoveries (n : Nv) : Nat := (List.range 6).foldl (fun k i => k + bit ((n.fuse 4).getLsbD i) 0) 0

def execSurveyRecover (s : State) : Host.Outcome State Fault Refusal :=
  match s.turn 0x15 with
  | none => .next s
  | some (c, s) =>
    if !s.nv.lost then .next (s.complete c stBadCommand [])
    else
      let n := min 6 (s.nv.recoveries + 1)
      let seq := s.nv.copies.foldl (fun m v => max m v.seq) 0
      let v := { Survey.factory with version := 2 ^ 31 + 2 ^ 24 * n, seq := seq + 1 }
      let t : Txn := { surveyTxn s.nv.nextTxn v with fuses := [(4, BitVec.ofNat 32 (2 ^ n - 1))] }
      let s := { s with nv := { s.nv with lost := false, survey := v } }
      .next ((s.queueTxn t).complete c stOk [])

/-! ## Attestation (16 R523, R524) -/

/-- Every byte of the report before its signature. -/
def State.attestBody (s : State) (nonce : List Byte) : List Byte :=
  let img := s.nv.running
  leBytes 8 0x3154535454415141 ++ leBytes 4 1
    ++ leBytes 4 (s.nv.secState + s.dbg.level * 4 + bit s.dbg.invasiveUsed 4 + bit s.dbg.tokenValid 5 + s.pwr.state.code * 2 ^ 6)
    ++ leBytes 4 (s.regs.device + bit s.regs.written 31) ++ leBytes 4 s.parcels.length ++ leBytes 8 s.regs.epoch ++ nonce
    ++ s.idDigest ++ img.digest ++ sha512 img.keyTable ++ s.nv.survey.digest s.idDigest
    ++ leBytes 4 s.nv.survey.version ++ leBytes 2 s.nv.fusedSvn ++ leBytes 2 img.svn ++ zeros 56
    ++ s.parcels.flatMap fun p => leBytes 1 p.num ++ leBytes 1 p.keySlot ++ zeros 14 ++ p.digest.take 64

def execAttest (s : State) : Host.Outcome State Fault Refusal :=
  match s.turn 0x16 with
  | none => .next s
  | some (c, s) =>
    let body := s.attestBody ((List.range 4).flatMap fun i => leBytes 8 (c.w i))
    .next (s.respond c 1 stOk [] (some (body ++ rsaSign s.nv.idModulus Config.identityExponent body)) false)

/-! ## Debug levels (16 R526, R527, R532) -/

/-- A DEBUG command in turn with a given SUB. -/
def State.turnDebug (s : State) (sub : Nat) : Option (Cmd × State) :=
  match s.turn 0x17 with
  | none => none
  | some (c, t) => if c.bits 0 1 0 = sub then some (c, t) else none

def State.debugDone (s : State) (c : Cmd) (status : Nat) : State := s.complete c status [s.dbg.level]

def execDebugSetLevel (s : State) : Host.Outcome State Fault Refusal :=
  match s.turnDebug 0 with
  | none => .next s
  | some (c, s) =>
    let level := c.bits 0 3 2
    if !s.levelPermitted level then .next (s.debugDone c stNotPermitted)
    else .next (({ s with dbg := { s.dbg with level := level } }).debugDone c stOk)

/-- A fresh nonce follows every token presented. -/
def execDebugPresentToken (token : List Byte) (s : State) : Host.Outcome State Fault Refusal :=
  match s.turnDebug 1 with
  | none => .next s
  | some (c, s) =>
    if c.w 1 % 64 ≠ 0 then .next (s.debugDone c stBadCommand)
    else if token.isEmpty then .next (s.debugDone c stHostRead)
    else
      let ok := s.tokenOk token
      let s := s.freshNonce
      if ok then .next (({ s with dbg := { s.dbg with level := 2, tokenValid := true } }).debugDone c stOk)
      else .next (s.debugDone c stNotPermitted)

def execDebugRelock (s : State) : Host.Outcome State Fault Refusal :=
  match s.turnDebug 2 with
  | none => .next s
  | some (c, s) => .next (s.endToken.debugDone c stOk)

/-! ## Edge memory by gateway (15 R497, 09 R329) -/

/-- Whether an export or import is possible: the range present, the port an ACTIVE gateway port, the stream bound by no loaded parcel. -/
def State.edgeMoveOk (s : State) (c : Cmd) (out : Bool) : Bool :=
  let port := c.bits 2 3 0
  let stream := c.bits 2 27 16
  decide (c.w 0 + c.w 1 ≤ 0x6000000000) && s.roleOf port == 0 && (s.port port).st == .active
    && !Binding.holds (s.parcels.flatMap (·.bindings)) port stream out

/-- Packets of kind 6 with up to 4,096 bytes each. -/
def State.sendStream (s : State) (port stream : Nat) (d : Data) : Nat → State
  | 0 => s
  | n + 1 =>
    if d.isEmpty then s
    else
      let here : Data := d.take 4096
      let a : W64 := BitVec.ofNat 64 (globalAddr s.regs.device 0 0 0)
      let k : LinkPkt := { kind := 6, flags := 0, stream := stream, amount := 0, dest := a, source := portSource s.regs.device port, signal := 0, way := none, data := here }
      (s.enqueue port k).sendStream port stream (d.drop 4096) n

def execEdgeExport (s : State) : Host.Outcome State Fault Refusal :=
  match s.turn 0x18 with
  | none => .next s
  | some (c, s) =>
    if !s.edgeMoveOk c true then .next (s.complete c stFailed [])
    else
      let (s, d) := s.rootRead (c.w 0) (c.w 1) (c.w 1 / 4096 + 2)
      .next ((s.sendStream (c.bits 2 3 0) (c.bits 2 27 16) d (c.w 1 / 4096 + 1)).complete c stOk [])

/-- The data is what the gateway sent on the stream; less than the command names fails it. -/
def execEdgeImport (data : Data) (s : State) : Host.Outcome State Fault Refusal :=
  match s.turn 0x19 with
  | none => .next s
  | some (c, s) =>
    if !s.edgeMoveOk c false || decide (data.length < c.w 1) then .next (s.complete c stFailed [])
    else .next ((s.rootWrite (c.w 0) (data.take (c.w 1)) (c.w 1 / 4096 + 2)).complete c stOk [])

end Sys2Proof.Machine
end

