-- ==== Sys2Proof/Machine/HostIf.lean ====
section
/-! DEFINITION. The host interface: the ledger, the ring's backlog, reads of host memory, resets of the interface (spec/15 R487-R504). -/

namespace Sys2Proof.Machine

/-! ## The ledger (R492, R495, R496) -/

/-- 8 bytes of a ledger slot. -/
def Hif.slotWord (h : Hif) (slot off : Nat) : Nat := leNat (cellsRead h.ledger (256 * slot + off) 8)

/-- The command in a slot (R492). -/
def Hif.slotCmd (h : Hif) (slot : Nat) : Cmd :=
  let hd := h.slotWord slot 0
  let commit := h.slotWord slot 0xF8
  { seq := commit % 2 ^ 32, vector := bitsOf hd 5 0, noIrq := hd.testBit 6, user := bitsOf hd 63 32, op := bitsOf commit 55 48
    body := (List.range 30).map fun i => BitVec.ofNat 64 (h.slotWord slot (8 + 8 * i)) }

/-- What a taken slot completes with at once, in the order of R495, R496, R497; none for a command that runs. -/
def slotRefusal (h : Hif) (slot : Nat) (c : Cmd) : Option Nat :=
  let commit := h.slotWord slot 0xF8
  if c.seq ≠ h.next then some stSequence
  else if bitsOf commit 47 40 ≠ hifVersion / 256 ∨ hifVersion % 256 < bitsOf commit 39 32 then some stVersion
  else match bodyMask c.op (c.bits 0 1 0) with
    | none => some stBadCommand
    | some mask =>
      if bodyStray c.body mask || bitsOf (h.slotWord slot 0) 31 7 != 0 || bitsOf commit 63 56 != 0 then some stBadCommand else none

/-- LEDGER_NEXT runs from 1 to 0xFFFFFFFF and wraps to 1. -/
def nextSeq (n : Nat) : Nat := if n = 0xFFFFFFFF then 1 else n + 1

/-- 15 R495: Alidade takes the slot in turn; with no ring set up only a RING_SETUP. -/
def execLedgerTake (s : State) : Host.Outcome State Fault Refusal :=
  let h := s.hif
  let slot := h.next % 4096
  let c := h.slotCmd slot
  if !s.serves .alidade || !h.busMaster || h.cut || h.slotWord slot 0xF8 == 0 || (!h.ringSet && c.op != 1) then .next s
  else
    let s := { s with hif := { h with ledger := cellsWrite h.ledger (256 * slot + 0xF8) (zeros 8), next := nextSeq h.next } }
    match slotRefusal h slot c with
    | some status => .next (s.respond c 1 status [] none false)
    | none => .next { s with hif := { s.hif with taken := s.hif.taken ++ [c] } }

/-! ## Ring and pool (R498, R503, R504) -/

/-- 15 R498, R503, R504: the host has zeroed the named words of its memory (ring entries it has consumed, pool slots it has read), and the
module retries. -/
def execBacklogRetry (zeroed : List Nat) (s : State) : Host.Outcome State Fault Refusal :=
  let s : State := { s with hif := { s.hif with mem := zeroed.foldl (fun m a => cellsWrite m a (zeros 8)) s.hif.mem } }
  .next (s.drainBacklog (s.hif.backlog.length + 2))

/-- A command that reads host memory (R488). -/
def Cmd.readsHost (c : Cmd) : Bool :=
  c.op == 0x02 || c.op == 0x08 || c.op == 0x13 || (c.op == 0x17 && c.bits 0 1 0 == 1)

/-- 15 R488: a host read of a processor has not completed within 50 ms; its command ends. -/
def execHostRead (proc : Proc) (s : State) : Host.Outcome State Fault Refusal :=
  match s.hif.taken.find? fun c => procOfOp c.op == proc && c.readsHost with
  | none => .next s
  | some c =>
    match s.turn c.op with
    | none => .next s
    | some (c, s) => .next (if c.op = 0x17 then s.complete c stHostRead [s.dbg.level] else s.complete c stHostRead [])

/-! ## Resets of the interface (R489) -/

/-- Configuration space, Bus Master Enable, the MSI-X table, the ring setup. -/
def State.resetInterface (s : State) : State :=
  { s with hif := { s.hif with
      ringSet := false, base := 0, log := 0, vector := 0, poolBase := 0, poolSlots := 0, entry := 0, busMaster := false
      msix := Hif.reset.msix, config := [] } }

/-- 15 R489. -/
def execPerstN (s : State) : Host.Outcome State Fault Refusal := .next s.resetInterface
/-- 15 R489. -/
def execHotReset (s : State) : Host.Outcome State Fault Refusal := .next s.resetInterface
/-- 15 R489. -/
def execFunctionLevelReset (s : State) : Host.Outcome State Fault Refusal := .next s.resetInterface
/-- 15 R489. -/
def execPcieLinkDown (s : State) : Host.Outcome State Fault Refusal := .next s.resetInterface

end Sys2Proof.Machine
end

