-- ==== Sys2Proof/Machine/Power.lean ====
section
/-! DEFINITION. Power, thermal and margin as commands (spec/14 R464-R486). What sensors and meters show comes with the command (log
entry 9). -/

namespace Sys2Proof.Machine

/-! ## Isobar's slots (R464, R468-R473) -/

/-- What the slot has measured; a main-input cause is absent above 47.0 V (R477). -/
def State.measure (s : State) (fieldWatts : List Nat) (other mainMv standbyMv : Nat) : State :=
  let fields := (s.fields.zipIdx).map fun vi => { vi.1 with watts := ((fieldWatts[vi.2]?).getD vi.1.watts) % 65536 }
  let total := fields.foldl (fun n v => n + v.watts) other
  let s : State := { s with fields := fields
                            pwr := { s.pwr with
                              mainMv := mainMv % 65536, standbyMv := standbyMv % 65536, slotW := (total :: s.pwr.slotW).take 100 } }
  s.dropCause 2 (decide (47000 < mainMv % 65536))

/-- A 1 s average more than 1 % above the budget. -/
def Pwr.over (p : Pwr) : Bool := decide (p.slotW.length = 100 ∧ 101 * p.inForce < p.slotW.foldl (· + ·) 0)

/-- A limit with hysteresis: passed at `high`, ended below `low`. -/
def passes (was : Bool) (high low x : Nat) : Bool := decide (high ≤ x) || (was && decide (low ≤ x))

/-- One field's thermal ceiling at a slot (R472, 09 R336): one point below where the field is while it or a stack has passed its limit, else back by one
point; the governor's ceiling ends (R475), and a new trim takes effect (R480). -/
def Field.heatStep (v : Field) (stackHot : Bool) : Field :=
  { v with heat := if v.tooHot || stackHot then min 7 (max v.heat v.point + 1) else v.heat - 1, cap := 0, trimNow := v.trim }

/-- 14 R464, R468, R470, R472, R473, R475, R485: a 10 ms slot boundary; in Standby the inputs are measured and nothing else happens. -/
def execIsobarSlot (fieldWatts : List Nat) (otherWatts mainMv standbyMv : Nat) (s : State) : Host.Outcome State Fault Refusal :=
  if !s.serves .isobar then .next s
  else if !s.main then .next (s.measure fieldWatts otherWatts mainMv standbyMv)
  else
    let s := s.measure fieldWatts otherWatts mainMv standbyMv
    let hot := s.emcs.any fun e => e.tooHot
    let old := s.fields
    let s := s.mapLive fun v => v.heatStep hot
    let lowered := (old.zip s.fields).any fun p => decide (p.1.heat < p.2.heat)
    let s := if lowered then s.powerEvent 3 else s
    let s := if s.pwr.over then s.powerEvent 7 else s
    let s := s.applyPoints (s.choice otherWatts)
    .next { s with pwr := { s.pwr with dither := (s.pwr.dither + 1) % 100 } }

/-- A plot's effective hint (R469): its current sheet's PACE when it has one, else DEFAULT, clamped. -/
def Plot.hint (p : Plot) : Nat :=
  let w := leNat (cellsRead p.seq.cache (1024 * p.seq.cur) 4)
  let h := if w.testBit 5 then bitsOf w 4 2 else p.pace.1
  max p.pace.2.2 (min p.pace.2.1 h)

/-- 14 R469. -/
def execHintReport (field : Nat) (s : State) : Host.Outcome State Fault Refusal :=
  let v := s.field field
  if !v.live then .next s
  else
    let l := (s.plots.filter fun pp => fieldOfPhys pp.1 == field && (pp.2.st == .running || pp.2.st == .draining)).map (·.2)
    .next (s.setField field { v with hintValid := !l.isEmpty
                                     hint := if l.isEmpty then 0 else l.foldl (fun m p => min m p.hint) 7
                                     floor := l.foldl (fun m p => min m p.pace.2.1) 7 })

/-! ## Temperatures and input power (R472, R475) -/

/-- The hottest of a field's sensors and its number; of two as hot, the lower number (DESIGN CHOICE, log entry 106). -/
def hottestOf (l : List Nat) : Option (Nat × Nat) :=
  ((l.take 16).zipIdx).foldl (fun (m : Option (Nat × Nat)) ti => match m with
    | none => some ti
    | some b => if b.1 < ti.1 then some ti else some b) none

/-- A field after a reading of its sensors; none says that there is none. -/
def Field.readTemp (v : Field) (l : List Nat) : Field :=
  match hottestOf l with
  | none => v
  | some (t, k) => { v with hottest := t % 256, sensor := k, tooHot := passes v.tooHot 95 92 t }

/-- 14 R472, R477, R485, R486: the readings of each field's 16 sensors, in °C; a field's junction cause is absent below 100 °C. -/
def execJunctionRead (readings : List (List Nat)) (s : State) : Host.Outcome State Fault Refusal :=
  let fields := (s.fields.zipIdx).map fun vi => vi.1.readTemp ((readings[vi.2]?).getD [])
  let top := fields.foldl (fun m v => max m v.hottest) 0
  let held := (List.range 48).foldl (fun (b : BitVec 48) f =>
    if ((fields[f]?).getD Field.reset).hottest < 100 ∧ (readings[f]?).getD [] ≠ [] then b &&& ~~~(BitVec.ofNat 48 (2 ^ f)) else b) s.pwr.junction
  let s : State := { s with fields := fields, pwr := { s.pwr with hotRun := max s.pwr.hotRun top, junction := held } }
  .next (s.dropCause 0 (decide (held = 0)))

/-- 09 R336, 14 R472, R477: a stack's temperature; its squall cause is absent when no stack is CRIT. Without supply there is nothing to read (01 R36). -/
def execStackTemperatureRead (stack celsius : Nat) (s : State) : Host.Outcome State Fault Refusal :=
  if !s.emcUp stack then .next s
  else
    let e := s.emc stack
    let s := s.setEmc stack { e with temp := celsius % 256, halved := decide (85 ≤ celsius), hot := decide (95 ≤ celsius)
                                     crit := decide (105 ≤ celsius), tooHot := passes e.tooHot 95 90 celsius }
    .next (s.dropCause 1 (!s.emcs.any fun e => e.crit))

/-- 14 R475, R485: a sample of 10 µs; energy in µJ. -/
def execCapSample (watts : Nat) (s : State) : Host.Outcome State Fault Refusal :=
  let w := watts % 65536
  let samples := (w :: s.pwr.samples).take 200
  let avg := samples.foldl (· + ·) 0 / samples.length
  let p := s.pwr
  let p := { p with
    samples := samples, mainW := w, avgW := avg, energy := (p.energy + 10 * w) % 2 ^ 64, energyRun := (p.energyRun + 10 * w) % 2 ^ 64
    peakRun := max p.peakRun avg, squallRun := if p.state == .squall then p.squallRun + 10 else p.squallRun }
  .next (({ s with pwr := p }).dropCause 4 (decide (avg < 45500)))

/-- A hardware step-down of one point, counted (R475, R479). -/
def Field.stepDown (v : Field) : Field := let v := v.toPoint (min 7 (v.point + 1)); { v with pwr := v.pwr.bump 1 1 }

/-- 14 R475: every 20 µs while the average is high and the latest sample is not below 43,500 W. -/
def execCapStep (s : State) : Host.Outcome State Fault Refusal :=
  if !s.main || decide (s.pwr.avgW < 44500) || decide (s.pwr.mainW < 43500) then .next s
  else
    let fast := s.fastest
    let go (v : Field) : Field := if v.point = fast ∧ v.point < 7 then let v := v.stepDown; { v with cap := v.point } else v
    .next ((s.mapLive go).lowerNet.powerEvent 1)

/-! ## Squall (R476-R478) -/

/-- 14 R476, R478: a cause that the state shows absent does not arise. -/
def execSquall (cause : SquallCause) (s : State) : Host.Outcome State Fault Refusal :=
  match cause with
  | .junction f => .next (({ s with pwr := { s.pwr with junction := s.pwr.junction ||| BitVec.ofNat 48 (2 ^ f) } }).enterSquall 0 (· == f))
  | .stack c => .next (if (s.emc c).crit then s.enterSquall 1 fun _ => true else s)
  | .mainInput => .next (s.enterSquall 2 fun _ => true)
  | .coolant => .next (if decide (47 < s.pwr.inlet) || decide (s.pwr.flow < 300) then s.enterSquall 3 fun _ => true else s)
  | .cap => .next (if 45500 ≤ s.pwr.avgW then s.enterSquall 4 fun _ => true else s)

/-- Some cause is present: one that has arisen and has not been found absent since, or one that the state shows. -/
def State.squallHolds (s : State) : Bool := s.pwr.causes != 0 || (s.emcs.any fun e => e.crit) || decide (45500 ≤ s.pwr.avgW)

/-- 14 R477, 16 R531: every cause has been absent for 100 ms; the fields stay at the points squall left. -/
def execSquallEnd (s : State) : Host.Outcome State Fault Refusal :=
  if s.pwr.state != .squall || s.squallHolds then .next s
  else
    let idle := s.quiet && s.clk.ready
    let s : State := { s with
      fields := s.fields.map fun (v : Field) => { v with squalled := false }
      emcs := if idle then s.emcs.map fun (e : Emc) => { e with selfRefresh := true } else s.emcs
      pwr := { s.pwr with state := if idle then .idle else .active }
      dbg := { s.dbg with suspended := false } }
    .next (s.event 0x08 [0] none)

/-! ## Trips and coolant (R472-R474) -/

/-- 14 R472, R474: THERMTRIP_N is asserted; the module stays stopped until a reset. In Off nothing is supplied that could sense or assert it (17 R539). -/
def execThermalTrip (s : State) : Host.Outcome State Fault Refusal :=
  if s.pwr.state == .off then .next s
  else
  let s := s.openMain
  .next (({ s with pwr := { s.pwr with stopped := true }, dbg := { s.dbg with thermtrip := true } }).alert 5)

/-- 14 R473, R474: flow below 15 L/min; the cause that the standby domain reports is SQUALL_CAUSE's coolant bit, a flow below 30 L/min (R476, R485). -/
def execCoolantLost (s : State) : Host.Outcome State Fault Refusal :=
  if 150 ≤ s.pwr.flow then .next s
  else
    let s := s.openMain
    .next { s with pwr := { s.pwr with stopped := true, causes := s.pwr.causes ||| 8 } }

/-- 14 R465, R473, R485. -/
def execCoolantChange (inletC outletC flowTenths : Nat) (s : State) : Host.Outcome State Fault Refusal :=
  let old := s.pwr.allowed
  let p : Pwr := { s.pwr with coolant := true, inlet := inletC % 256, outlet := outletC % 256, flow := flowTenths % 4096 }
  let now := p.allowed
  let s : State := { s with pwr := { p with inForce := min p.sustain now } }
  let s := if now < 40000 ∧ 40000 ≤ old then s.powerEvent 5 else s
  .next (s.dropCause 3 (decide (p.inlet ≤ 47 ∧ 300 ≤ p.flow)))

/-! ## Droop and age (R479, R480) -/

/-- 14 R467, R479: detectors are ignored during the lockout; a step down keeps the limit of 08 R307, and the count begins anew after it (DESIGN CHOICE, log
entry 107). -/
def execDroopStretch (field : Nat) (s : State) : Host.Outcome State Fault Refusal :=
  let v := s.field field
  if !v.live || v.lockout != 0 then .next s
  else
    let now := s.clk.count
    let v := { v with lockout := 8, pwr := v.pwr.bump 0 1, stretchAt := now :: v.stretchAt.filter fun t => decide (now < t + 10000) }
    if v.stretchAt.length ≤ 4096 ∨ 7 ≤ v.point then .next (s.setField field v)
    else
      let v : Field := { v.stepDown with stretchAt := [] }
      .next ((s.setField field v).keepRatio.lowerNet.powerEvent 2)

/-- The trim that a need of so many mV gives: steps of 5 mV, at most 60, never lower than before; it takes effect at a slot boundary. -/
def Field.age (v : Field) (need : Nat) : Field :=
  let t := (need + 4) / 5 * 5
  { v with trim := max v.trim (min 60 t), ageLimit := v.ageLimit || decide (60 < t) }

/-- 14 R480. -/
def execAgeingMeasure (needMv : List Nat) (s : State) : Host.Outcome State Fault Refusal :=
  if !s.serves .isobar then .next s
  else
    let s' : State := { s with fields := (s.fields.zipIdx).map fun vi => vi.1.age ((needMv[vi.2]?).getD 0) }
    .next (if (needMv.take 48).any fun n => decide (60 < n) then s'.powerEvent 6 else s')

/-! ## Supplies (R481, R482, R414) -/

/-- 14 R481, R482. -/
def execNvBlock (standby : Bool) (s : State) : Host.Outcome State Fault Refusal :=
  let p := if standby then { s.pwr with blockStandby := true } else { s.pwr with blockMain := true }
  .next (({ s with pwr := p }).powerEvent 4)

/-- 14 R477, R481, R482: both inputs have held their thresholds for 100 ms; the main input is above 47.0 V. -/
def execNvUnblock (s : State) : Host.Outcome State Fault Refusal :=
  .next (({ s with pwr := { s.pwr with blockMain := false, blockStandby := false } }).dropCause 2 true)

/-- 14 R481, 12 R414. -/
def execMainInputLoss (s : State) : Host.Outcome State Fault Refusal :=
  let s := s.openMain
  .next { s with clk := { s.clk with mainValid := false } }

/-- 14 R481, 12 R414. -/
def execMainOverVoltage (s : State) : Host.Outcome State Fault Refusal :=
  let s := s.openMain
  .next { s with clk := { s.clk with mainValid := false } }

/-! ## Idle (R483) -/

def State.pointsNow (s : State) : List Nat := s.fields.map fun (v : Field) => v.point

/-- 14 R483, 09 R337: after S8, 1 ms with nothing to do. -/
def execIdleEntry (s : State) : Host.Outcome State Fault Refusal :=
  if !s.clk.ready || s.pwr.state != .active || !s.quiet then .next s
  else
    let s := ({ s with pwr := { s.pwr with state := .idle, waking := false } }).refresh true
    .next (s.applyPoints s.pointsNow)

/-- 14 R483, 09 R337: Idle has ended (`State.wake`); the stacks leave self-refresh, and the fields take their chosen points again. -/
def execIdleExit (s : State) : Host.Outcome State Fault Refusal :=
  if s.pwr.state != .active || !s.pwr.waking then .next s
  else
    let s := ({ s with pwr := { s.pwr with waking := false } }).refresh false
    let other := s.pwr.slotW.headD 0 - s.fields.foldl (fun n (v : Field) => n + v.watts) 0
    .next (s.applyPoints (s.choice other))

end Sys2Proof.Machine
end

