-- ==== Sys2Proof/Machine/SheetOps.lean ====
section
/-! DEFINITION. The operations of a sheet, each issued at a plot from the slot in turn (spec/02 R74-R81, R554-R556, spec/03, spec/04,
spec/05 R182, R188, spec/06 R217-R234, spec/07 R244-R277, spec/09 R320-R325). What an operation does once issued stands in
Units.lean and Sequencer.lean. A row whose operation is not the one in turn, or may not issue now, leaves the state as it is (log entry 2). -/

namespace Sys2Proof.Machine

/-- One event at a plot as an answer. -/
def State.at (s : State) (p : XY) (f : Run → Run) : Host.Outcome State Fault Refusal := .next (s.onPlot p f)

/-- Issue the slot in turn of a plot as the operation of a class and code. -/
def State.issueAt (s : State) (p : XY) (cls op : Nat) (edge : Option Bool) : Host.Outcome State Fault Refusal :=
  s.at p fun r => r.issue cls op edge

/-- 02 R76, R79. -/
def execNoOperation (p : XY) (s : State) : Host.Outcome State Fault Refusal := s.issueAt p 0 0 none

/-- 05 R182. -/
def execEndFiring (p : XY) (s : State) : Host.Outcome State Fault Refusal := s.issueAt p 0 1 none

/-- 05 R188. -/
def execSwitchRequest (p : XY) (s : State) : Host.Outcome State Fault Refusal := s.issueAt p 0 2 none

/-- 02 R57, 04 R152. -/
def execTensorMac (p : XY) (s : State) : Host.Outcome State Fault Refusal := s.issueAt p 1 0 none

/-- 02 R57, 04 R152. -/
def execTensorClearMac (p : XY) (s : State) : Host.Outcome State Fault Refusal := s.issueAt p 1 1 none

/-- 04 R157, 04 R158. -/
def execTensorAddWords (p : XY) (s : State) : Host.Outcome State Fault Refusal := s.issueAt p 1 2 none

/-- 02 R57. -/
def execClearTile (p : XY) (s : State) : Host.Outcome State Fault Refusal := s.issueAt p 1 3 none

/-- 02 R62. -/
def execVectorAdd (p : XY) (s : State) : Host.Outcome State Fault Refusal := s.issueAt p 2 0 none

/-- 02 R62. -/
def execVectorSubtract (p : XY) (s : State) : Host.Outcome State Fault Refusal := s.issueAt p 2 1 none

/-- 02 R62. -/
def execVectorMultiply (p : XY) (s : State) : Host.Outcome State Fault Refusal := s.issueAt p 2 2 none

/-- 02 R62. -/
def execVectorFma (p : XY) (s : State) : Host.Outcome State Fault Refusal := s.issueAt p 2 3 none

/-- 02 R62. -/
def execVectorMin (p : XY) (s : State) : Host.Outcome State Fault Refusal := s.issueAt p 2 4 none

/-- 02 R62. -/
def execVectorMax (p : XY) (s : State) : Host.Outcome State Fault Refusal := s.issueAt p 2 5 none

/-- 02 R62. -/
def execVectorCompare (p : XY) (s : State) : Host.Outcome State Fault Refusal := s.issueAt p 2 6 none

/-- 02 R62. -/
def execVectorSelect (p : XY) (s : State) : Host.Outcome State Fault Refusal := s.issueAt p 2 7 none

/-- 02 R62. -/
def execVectorAbsoluteValue (p : XY) (s : State) : Host.Outcome State Fault Refusal := s.issueAt p 2 8 none

/-- 02 R62. -/
def execVectorNegate (p : XY) (s : State) : Host.Outcome State Fault Refusal := s.issueAt p 2 9 none

/-- 02 R62. -/
def execVectorConvert (p : XY) (s : State) : Host.Outcome State Fault Refusal := s.issueAt p 2 10 none

/-- 02 R63. -/
def execExp2 (p : XY) (s : State) : Host.Outcome State Fault Refusal := s.issueAt p 3 0 none

/-- 02 R63. -/
def execLog2 (p : XY) (s : State) : Host.Outcome State Fault Refusal := s.issueAt p 3 1 none

/-- 02 R63. -/
def execReciprocal (p : XY) (s : State) : Host.Outcome State Fault Refusal := s.issueAt p 3 2 none

/-- 02 R63. -/
def execRsqrt (p : XY) (s : State) : Host.Outcome State Fault Refusal := s.issueAt p 3 3 none

/-- 02 R63. -/
def execSinOfPhase (p : XY) (s : State) : Host.Outcome State Fault Refusal := s.issueAt p 3 4 none

/-- 02 R63. -/
def execCosOfPhase (p : XY) (s : State) : Host.Outcome State Fault Refusal := s.issueAt p 3 5 none

/-- 09 R320. -/
def execMove (p : XY) (s : State) : Host.Outcome State Fault Refusal := s.issueAt p 4 0 none

/-- 09 R321. -/
def execEdgeRead (p : XY) (s : State) : Host.Outcome State Fault Refusal := s.issueAt p 4 0 (some true)

/-- 09 R321. -/
def execEdgeWrite (p : XY) (s : State) : Host.Outcome State Fault Refusal := s.issueAt p 4 0 (some false)

/-- 06 R217. -/
def execSend (p : XY) (s : State) : Host.Outcome State Fault Refusal := s.issueAt p 5 0 none

/-- 06 R217. -/
def execSendTile (p : XY) (s : State) : Host.Outcome State Fault Refusal := s.issueAt p 5 1 none

/-- 06 R234. -/
def execRingRelease (p : XY) (s : State) : Host.Outcome State Fault Refusal := s.issueAt p 6 0 none

/-- 04 R160. -/
def execFinish (p : XY) (s : State) : Host.Outcome State Fault Refusal := s.issueAt p 7 0 none

/-- 07 R245. -/
def execBeaconAdd (p : XY) (s : State) : Host.Outcome State Fault Refusal := s.issueAt p 8 0 none

/-- 07 R245. -/
def execBeaconWait (p : XY) (s : State) : Host.Outcome State Fault Refusal := s.issueAt p 8 1 none

/-- 07 R245. -/
def execBeaconSet (p : XY) (s : State) : Host.Outcome State Fault Refusal := s.issueAt p 8 2 none

/-- 07 R255. -/
def execContourArrive (p : XY) (s : State) : Host.Outcome State Fault Refusal := s.issueAt p 9 0 none

/-- 07 R255. -/
def execContourWait (p : XY) (s : State) : Host.Outcome State Fault Refusal := s.issueAt p 9 1 none

/-- 07 R255. -/
def execContourArriveAndWait (p : XY) (s : State) : Host.Outcome State Fault Refusal := s.issueAt p 9 2 none

/-- 07 R263. -/
def execCommitOpen (p : XY) (s : State) : Host.Outcome State Fault Refusal := s.issueAt p 10 0 none

/-- 07 R270. -/
def execCommit (p : XY) (s : State) : Host.Outcome State Fault Refusal := s.issueAt p 10 1 none

/-- 07 R269. -/
def execCommitAbort (p : XY) (s : State) : Host.Outcome State Fault Refusal := s.issueAt p 10 2 none

/-- 07 R273. -/
def execJoinParcelCommit (p : XY) (s : State) : Host.Outcome State Fault Refusal := s.issueAt p 10 3 none

end Sys2Proof.Machine
end

