-- ==== Sys2Proof/Machine/Sequencing.lean ====
section
/-! DEFINITION. The events of a plot's sequencer and steering unit beside issue (spec/02 R65, R66, R72-R75, R86, spec/04 R171, spec/05
R180-R197, spec/07 R246, R273-R275); what each does stands in Sequencer.lean. -/

namespace Sys2Proof.Machine

/-- 07 R246. -/
def execBeaconWaitSatisfied (p : XY) (s : State) : Host.Outcome State Fault Refusal := s.at p Run.beaconDone

/-- 07 R273, R275. -/
def execJoinDecision (p : XY) (s : State) : Host.Outcome State Fault Refusal := s.at p Run.joinDecision

/-- 07 R273. -/
def execJoinConfirm (p : XY) (s : State) : Host.Outcome State Fault Refusal := s.at p Run.joinConfirm

/-- 02 R86. -/
def execSequencerMismatch (p : XY) (s : State) : Host.Outcome State Fault Refusal := s.at p Run.mismatch

/-- 02 R74. -/
def execOperationComplete (p : XY) (op : Nat) (s : State) : Host.Outcome State Fault Refusal := s.at p (fun r => r.complete op)

/-- 02 R75. -/
def execOperandPopResume (p : XY) (op : Nat) (s : State) : Host.Outcome State Fault Refusal := s.at p (fun r => r.popResume op)

/-- 06 R220. -/
def execCreditWaitResume (p : XY) (op : Nat) (s : State) : Host.Outcome State Fault Refusal := s.at p (fun r => r.creditResume op)

/-- 05 R180, R181. -/
def execFiringBegin (p : XY) (s : State) : Host.Outcome State Fault Refusal := s.at p Run.firingBegin

/-- 05 R182. -/
def execFiringComplete (p : XY) (s : State) : Host.Outcome State Fault Refusal := s.at p (fun r => r.completeFiring false)

/-- 02 R72. -/
def execSheetSwitch (p : XY) (s : State) : Host.Outcome State Fault Refusal := s.at p Run.switchBegin

/-- 02 R72, R73. -/
def execSheetSwitchDone (p : XY) (s : State) : Host.Outcome State Fault Refusal := s.at p Run.switchDone

/-- 05 R195, R196. -/
def execOuterIterationBegin (p : XY) (s : State) : Host.Outcome State Fault Refusal := s.at p Run.iterationBegin

/-- 05 R196. -/
def execOuterIterationComplete (p : XY) (s : State) : Host.Outcome State Fault Refusal := s.at p (fun r => r.completeFiring true)

/-- 02 R65, 05 R184. -/
def execSteeringSwitch (p : XY) (rule : Nat) (s : State) : Host.Outcome State Fault Refusal := s.at p (fun r => r.steer 1 rule)

/-- 02 R66, 05 R185. -/
def execSteeringMerge (p : XY) (rule : Nat) (s : State) : Host.Outcome State Fault Refusal := s.at p (fun r => r.steer 2 rule)

/-- 04 R171. -/
def execGenerationPeriodFlush (p : XY) (s : State) : Host.Outcome State Fault Refusal := s.at p Run.flushPeriod

end Sys2Proof.Machine
end

