-- ==== Sys2Proof/Machine/TestRun.lean ====
section
/-! DEFINITION. The run of a rerun's plot in TEST (spec/13 R444, R445): the current sheet of a copied record goes through up to 16 firings, puts
nothing on the networks and reaches no neighbour, and gives a signature. -/

namespace Sys2Proof.Machine

/-- A plot in TEST at the start of a run: its sequencer is let go, with no trap for NaN, no gate and no old fault (log entry 71). -/
def Plot.testRunner (p : Plot) : Run :=
  { p := { p with st := .running, gate := false, nanTrap := false, trap := Plot.reset.trap
                  seq := { p.seq with ops := [], firings := [], target := none, switching := none, gen := none, ended := false
                                      halted := false, stepOne := false } }
    phys := 0, x := 0, y := 0, dev := 0, id := 0, nbrs := List.replicate 4 none, pkts := [], tallies := [], cycle := 0, free := 0
    test := true, wrote := [] }

/-- Every operation in flight that can go on or complete does. -/
def Run.testOps (r : Run) : Run :=
  let r := r.p.seq.ops.foldl (fun (r : Run) f => ((r.popResume f.id).creditResume f.id).complete f.id) r
  r.beaconDone

/-- Steering rules fire beside the operations. -/
def Run.testSteer (r : Run) : Run := ((((r.steer 1 0).steer 1 1).steer 2 0).steer 2 1)

/-- The next operation issues, or the next firing begins while fewer than 16 have. -/
def Run.testIssue (r : Run) (fired : Nat) : Run × Nat :=
  match r.p.issuable with
  | some (f, h, w) => (r.issueWord f h w, fired)
  | none =>
    if 16 ≤ fired then (r, fired)
    else if r.p.mayFire || r.p.mayIterate then (r.begin, fired + 1)
    else (r, fired)

/-- Queues that a firing cannot do without: those its rule finds empty, and those an operation waits for. -/
def Plot.shortQueues (p : Plot) : List Nat :=
  let h := sheetHeader p.seq.cache p.seq.cur
  (List.range 16).filter fun n =>
    (h.inQ.testBit n && (p.queue n).entries.isEmpty)
      || p.seq.ops.any fun f => f.wait == .pop && (opQueues f.word).contains n

/-- Pattern entry i of a run, the same in every run (R444 step 2; log entry 71). -/
def patternEntry (i : Nat) : Data := cleanData ((List.range 4).flatMap fun k => leBytes 8 (Config.pattern (4 * i + k)).toNat)

/-- A pattern entry for each queue that holds too few; the number of entries added so far goes with it. -/
def Run.addPattern (r : Run) (i : Nat) (qs : List Nat) : Run × Nat :=
  qs.foldl (fun (a : Run × Nat) n =>
    let q := a.1.p.queue n
    ({ a.1 with p := a.1.p.setQueue n { q with entries := q.entries ++ [patternEntry a.2] } }, a.2 + 1)) (r, i)

/-- One round of a run: what is in flight, the firing that is complete, steering, then issue. A fault, a switch or the plot's end stops
it. -/
def Run.testRound (r : Run) (fired : Nat) : Run × Nat :=
  if r.p.st ≠ .running ∨ r.p.seq.target.isSome = true then (r, fired)
  else (((r.testOps.completeFiring false).completeFiring true).testSteer).testIssue fired

/-- Rounds until nothing moves any more; while no firing has completed, pattern entries are added where entries are missing. -/
def Run.testRounds (r : Run) (fired pattern : Nat) : Nat → Run
  | 0 => r
  | fuel + 1 =>
    let (r', n) := r.testRound fired
    if r' ≠ r then r'.testRounds n pattern fuel
    else
      let qs := r.p.shortQueues
      let first := decide (fired = 0) || (decide (fired = 1) && !r.p.seq.firings.isEmpty)
      if !first || qs.isEmpty || r.p.st != .running || r.p.seq.target.isSome then r
      else
        let (r, i) := r.addPattern pattern qs
        r.testRounds fired i fuel

/-- The bytes that TEST_SIG is formed over (R445): the messages the plot would have sent, in send order, both tiles, the memory it wrote in
the order of the writes, as it stands at the end (log entry 71). -/
def Run.testBytes (r : Run) : List Byte :=
  (r.pkts.flatMap fun k => match k.body with
    | .msg m => m.data.map (·.1)
    | _ => [])
  ++ tileBytes r.p.tile0 ++ tileBytes r.p.tile1
  ++ r.wrote.flatMap fun w => (r.p.mem.read w.1 w.2).data.map (·.1)

/-- A run's signature (R445): what a healthy run gives, and what the silicon did to it (log entry 9). -/
def Plot.testSig (p : Plot) (err : W32) : W32 := BitVec.ofNat 32 (crc32c (p.testRunner.testRounds 0 0 (2 ^ 30)).testBytes) ^^^ err

end Sys2Proof.Machine
end

