-- ==== Sys2Proof/Machine/Service.lean ====
section
/-! DEFINITION. Theodolite's service: reruns and their verdicts, patrol and queued tests (spec/13 R443-R449), lost supplies and what follows
them (spec/13 R453-R456, spec/08 R294), restarts of processors (spec/15 R506, R507), transactions that wait (spec/14 R482), calibration
windows (spec/09 R338). -/

namespace Sys2Proof.Machine

/-! ## Calibration windows (09 R338) -/

/-- 09 R338, 13 R450: a window opens for 100 reference cycles; a requested calibration runs in it. Without supply nothing happens (01 R36). -/
def execCalibrationWindow (stack : Nat) (s : State) : Host.Outcome State Fault Refusal :=
  .next (if !s.emcUp stack then s else s.setEmc stack { s.emc stack with window := 100, calibrate := false })

/-! ## Reruns (13 R443-R446) -/

/-- The idle margin plot nearest to a plot in the same row of its field; of two as near, the one with the lower index. -/
def State.marginFor (s : State) (phys : Nat) : Option Nat :=
  let start := phys / 156 * 156
  ((List.range 156).filterMap fun i =>
    let ph := start + i
    let p := s.plot ph
    if ph ≠ phys ∧ logicalOf s.nv.survey.proj ph = none ∧ s.alive ph = true ∧ p.st = .idle then some ph else none).foldl
      (fun (best : Option Nat) ph => match best with
        | none => some ph
        | some b => if absDiff ph phys < absDiff b phys then some ph else some b) none

/-- A plot in TEST with the copied record and sheet (R444 step 2); its memory no longer is what a release kept. -/
def Plot.takeRerun (p : Plot) (u : Suspect) : Plot :=
  let v := p.restore u.record
  { v with st := .test, kept := false, keptDigest := []
           seq := { v.seq with cache := cellsWrite v.seq.cache (1024 * v.seq.cur) u.sheet }
           mem := (v.mem.write (0x32000 + 1024 * v.seq.cur) (cleanData u.sheet)).mem }

def Plot.setSig (p : Plot) (sig : W32) : Plot := { p with test := { p.test with sig := sig } }

/-- A plot leaves TEST for IDLE (12 R426). -/
def Plot.leaveTest (p : Plot) (prog : W32) : Plot :=
  let p := p.leaveParcel false false []
  { p with test := { p.test with done := true, prog := prog } }

def State.leaveTest (s : State) (prog : W32) (phys : Nat) : State :=
  if (s.plot phys).st == .test then s.setPlot phys ((s.plot phys).leaveTest prog) else s

/-- Put a suspect's entry back. -/
def State.setSuspect (s : State) (u : Suspect) : State :=
  { s with svc := { s.svc with suspects := s.svc.suspects.map fun v => if v.phys == u.phys then u else v } }

/-- A suspect whose rerun may start: it has left its parcel, and is IDLE or, after a failing patrol test, still in TEST (12 R426, 13 R443). -/
def State.canRerun (s : State) (ph : Nat) : Bool :=
  let p := s.plot ph
  p.parcel == 0 && s.alive ph && (p.st == .idle || (p.st == .test && !s.svc.testing.any fun t => t.1 == ph))

/-- 13 R443-R445: the rerun of a suspect that has left its parcel. It and a margin plot go to TEST with the record and sheet; two runs on the
suspect and one on the margin plot give their signatures. -/
def execRerun (a : RerunRuns) (s : State) : Host.Outcome State Fault Refusal :=
  match s.svc.suspects.find? fun u => u.phys == a.phys && u.margin.isNone with
  | none => .next s
  | some u =>
    if !s.serves .theodolite || !s.canRerun a.phys then .next s
    else match s.marginFor a.phys with
      | none => .next s
      | some m =>
        let p := (s.plot a.phys).takeRerun u
        let q := (s.plot m).takeRerun u
        let sig1 := p.testSig a.errs.suspect1
        let sig2 := p.testSig a.errs.suspect2
        let sig3 := q.testSig a.errs.margin
        .next (((s.setPlot a.phys (p.setSig sig2)).setPlot m (q.setSig sig3)).setSuspect { u with margin := some m, sigs := [sig1, sig2, sig3] })

/-- Verdicts of R446. -/
inductive Verdict where
  | transient | permanent | undecided | other
  deriving DecidableEq, Repr

/-- The verdict of a rerun; `other` says that the first margin plot becomes suspect. -/
def verdict (sigs : List W32) (second : Option W32) (testsPass under : Bool) : Verdict :=
  match sigs with
  | [a, b, c] =>
    if under ∨ a ≠ b ∨ testsPass = false then .permanent
    else if a = c then .transient
    else match second with
      | none => .undecided
      | some d => if a = d then .other else .permanent
  | _ => .undecided

/-- Every plot of a concluded rerun is idle again, and requests that joined it are answered (13 R449). -/
def State.endRerun (s : State) (u : Suspect) (bad : Bool) : State :=
  let (prog, s) := s.draw
  let all := u.phys :: (u.margin.toList ++ (u.second.map (·.1)).toList)
  let s := all.foldl (State.leaveTest · (BitVec.ofNat 32 prog)) s
  let s := { s with svc := { s.svc with suspects := s.svc.suspects.filter fun v => v.phys != u.phys } }
  all.foldl (fun (s : State) ph => s.answerTests ph (bad && ph == u.phys)) s

/-- 13 R445-R447, R451: an undecided rerun first runs once on a second margin plot; the verdict then follows. -/
def execRerunVerdict (phys : Nat) (a : RerunCheck) (s : State) : Host.Outcome State Fault Refusal :=
  match s.svc.suspects.find? fun u => u.phys == phys with
  | none => .next s
  | some u =>
    match u.margin with
    | none => .next s
    | some m =>
      if !s.serves .theodolite || (s.plot phys).st != .test then .next s
      else match verdict u.sigs (u.second.map (·.2)) a.testsPass (s.plot phys).underSurvey with
        | .transient => .next ((s.endRerun u false).underSurvey phys)
        | .permanent => .next ((s.endRerun u true).plotDead phys)
        | .other => .next ((s.endRerun u false).suspectAs m u.record u.sheet)
        | .undecided =>
          match s.marginFor phys with
          | none => .next s
          | some n =>
            let q := (s.plot n).takeRerun u
            let d := q.testSig a.second
            .next ((s.setPlot n (q.setSig d)).setSuspect { u with second := some (n, d) })

/-! ## Patrol and queued tests (13 R447-R449) -/

/-- Adjacent plots that a patrol test may find failing: those that are IDLE or in TEST (R448). -/
def State.patrolSides (s : State) (ph : Nat) (nb : BitVec 4) : BitVec 4 :=
  BitVec.ofNat 4 ((List.range 4).foldl (fun n d => match physNear ph d with
    | some q => n + bit (nb.getLsbD d && ((s.plot q).st == .idle || (s.plot q).st == .test)) d
    | none => n) 0)

/-- 13 R447, R448, 12 R426, R427: a patrol test of an idle plot of no parcel begins, or gives its result; router connections are not tested. A plot that fails
stays in TEST, a suspect, until the verdict of its rerun, since R426 lets it leave TEST only when a test passes or when it is marked dead (DEDUCED, log
entry 103). -/
def execPatrolTest (a : TestEvent) (s : State) : Host.Outcome State Fault Refusal :=
  let p := s.plot a.phys
  if !physOk a.phys || !s.serves .theodolite then .next s
  else match a.result with
    | none => .next (if s.alive a.phys && p.st == .idle && p.parcel == 0 then s.enterTest true a.phys else s)
    | some r =>
      if !s.inTest a.phys true then .next s
      else
        let nb := s.patrolSides a.phys r.nbFail
        let bad := r.selfFail || nb != 0
        let (prog, s) := (if bad then s.stopTest a.phys else s.endTest a.phys).draw
        let p := s.plot a.phys
        let s := s.setPlot a.phys { p with test := { p.test with done := true, selfFail := r.selfFail, nbFail := nb, sig := r.sig, prog := BitVec.ofNat 32 prog } }
        let s := s.answerTests a.phys bad
        if bad then .next (({ s with svc := { s.svc with passes := listDel a.phys s.svc.passes } }).suspect a.phys [])
        else if !p.underSurvey then .next s
        else
          let n := (listGet s.svc.passes a.phys).getD 0 + 1
          if n < 144 then .next { s with svc := { s.svc with passes := listPut a.phys n s.svc.passes } }
          else .next (({ s with svc := { s.svc with passes := listDel a.phys s.svc.passes } }).clearSurvey a.phys)

/-- 13 R449, 12 R426: a queued test begins once the plot has left its parcel, or gives its result. -/
def execQueuedTestRun (a : TestEvent) (s : State) : Host.Outcome State Fault Refusal :=
  let p := s.plot a.phys
  if !(s.svc.tests.any fun t => t.1 == a.phys) || !s.serves .theodolite then .next s
  else match a.result with
    | none => .next (if s.alive a.phys && p.st == .idle && p.parcel == 0 then s.enterTest false a.phys else s)
    | some r => .next (if s.inTest a.phys false then (s.testPlot a.phys (some r) true).answerTests a.phys r.selfFail else s)

/-! ## Lost supplies (13 R453, R454, R456) -/

/-- 13 R453, 08 R294, 14 R485. -/
def execFieldSupplyFault (field : Nat) (s : State) : Host.Outcome State Fault Refusal := .next (s.supplyFault field)

/-- 08 R286, R294, 10 R373, 11 R390: the version counts a rewrite that no earlier event of the gazetteer brought about. -/
def execRouteRewrite (s : State) : Host.Outcome State Fault Refusal :=
  if !s.serves .theodolite then .next s
  else
    let due := s.routesDue
    let t := s.rewriteRoutes
    .next ((if t.fields = s.fields ∨ due = true then t else t.survey Survey.bump).rewriteModroute)

/-- Requests of a field are served and discarded (R454). -/
def State.serveLost (s : State) (c : Nat) (l : List EdgeReq) : State :=
  l.foldl (fun (s : State) q =>
    let s := if q.write then s.edgeWriteAt c q.addr q.data else (s.edgeReadAt c q.addr q.len).1
    s.countEmc c (if q.write then 3 else 2) 1) s

/-- Every controller serves and discards a fenced field's requests in its pool, and takes back the tickets the field holds (R454), while
the memory domain works. -/
def State.reclaimField (s : State) (f : Nat) : State :=
  if !s.clk.mem.up then s else (List.range 24).foldl (fun (s : State) c =>
    let here (q : EdgeReq) : Bool := fieldOfPhys q.phys == f
    let s := s.serveLost c ((s.emc c).pool.filter here)
    let e := s.emc c
    (s.setEmc c { e with pool := e.pool.filter fun q => !here q, holders := e.holders.filter fun ph => fieldOfPhys ph != f }).grantTickets c) s

/-- 13 R454. -/
def execAttachmentSwitch (what : Attach) (s : State) : Host.Outcome State Fault Refusal :=
  if !s.serves .theodolite then .next s
  else match what with
    | .emc c =>
      let e := s.emc c
      if e.second || !(s.field (emcField c)).fenced then .next s
      else .next ((s.setEmc c { e with second := true }).reclaimField (emcField c))
    | .port p =>
      let v := s.port p
      if v.second || !(s.field (portField p)).fenced then .next s
      else .next ((s.setPort p { v with second := true }).reclaimField (portField p))

/-- 13 R456: a field's clock generator is lost with the field, a stack is retired, a port goes down. -/
def execSegmentSupplyFault (segment : Segment) (s : State) : Host.Outcome State Fault Refusal :=
  match segment with
  | .clock f => .next (s.supplyFault f)
  | .memory c => .next ((s.setEmc c { s.emc c with cut := true }).retireStack c)
  | .link p =>
    if (s.port p).cut then .next s
    else
      let was := (s.port p).st
      let s := s.setPort p { s.port p with cut := true }
      .next (if was == .off then s else s.enterDown p true)

/-- 13 R456: a processor, the host interface or the sideband controller is lost; parcels continue. -/
def execStandbyBranchFault (branch : Branch) (s : State) : Host.Outcome State Fault Refusal :=
  match branch with
  | .processor p => .next (s.setProc p { s.proc p with cut := true, up := false, restarting := false })
  | .hostInterface => .next { s with hif := { s.hif with cut := true } }
  | .sideband => .next { s with dbg := { s.dbg with cut := true } }

/-! ## Restarts (15 R506, R507, 13 R457) -/

/-- The processor that restarts another (R506). -/
def restarterOf : Proc → Proc
  | .compass => .theodolite
  | .alidade => .compass
  | .theodolite => .compass
  | .isobar => .compass

/-- 15 R506: a halted processor's watchdog is paused (16 R528). -/
def execProcessorWatchdogExpiry (proc : Proc) (s : State) : Host.Outcome State Fault Refusal :=
  let v := s.proc proc
  if !v.up || v.restarting || v.halted || v.cut then .next s
  else
    let s := s.setProc proc { v with expired := true }
    .next (if s.serves (restarterOf proc) then s.beginRestart proc else s)

/-- 15 R506: 50 ms after an expiry that no restart has answered. -/
def execHardwareRestart (proc : Proc) (s : State) : Host.Outcome State Fault Refusal :=
  .next (if (s.proc proc).expired then s.beginRestart proc else s)

/-- What a processor services when it is back. -/
def State.resumed (s : State) : Proc → State
  | .compass => s.runWork
  | .alidade => s.drainBacklog (s.hif.backlog.length + 2)
  | .theodolite => ((List.range 48).foldl (fun (s : State) f => if (s.field f).supply then s.recordFenced f else s) s).serviceFaults
  | .isobar => (List.range 48).foldl (fun (s : State) f => s.reportSupply f) s

/-- 15 R506, R507, 13 R457: Compass comes back only from an image that the ROM accepts, as at S0; with none it stays in restart (DESIGN CHOICE, log entry
109). -/
def execProcessorRestartComplete (proc : Proc) (s : State) : Host.Outcome State Fault Refusal :=
  let v := s.proc proc
  if !v.restarting || (proc == .compass && s.nv.romImage.isNone) then .next s
  else
    let s := s.setProc proc { v with restarting := false, restarts := min 0xFFFF (v.restarts + 1), partition := [] }
    .next ((s.restartEvent proc 1).resumed proc)

/-- 14 R482, 15 R508: a waiting transaction goes on. -/
def execTransactionResume (s : State) : Host.Outcome State Fault Refusal := .next s.runWork

end Sys2Proof.Machine
end

