-- ==== Sys2Proof/Machine/Startup.lean ====
section
/-! DEFINITION. Resets, the release order, the stages S0 to S8 and the clocks (spec/12 R403-R434). What tests, training and supplies show comes
with the command (log entry 9). -/

namespace Sys2Proof.Machine

/-! ## What a reset leaves (R408, R10) -/

/-- A field after a reset: on a Warm one its switch stays as it is, and a field fenced for supply stays fenced. -/
def Field.afterReset (v : Field) (warm : Bool) : Field :=
  if warm then { Field.reset with pwrEn := v.pwrEn, pwrOk := v.pwrOk, fenced := v.supply, supply := v.supply } else Field.reset

/-- A domain beside the fields after a reset: held in reset; its switch stays closed on a Warm one (R411). -/
def Domain.afterReset (d : Domain) (warm : Bool) : Domain := if warm then { d with rstN := false } else Domain.off

/-- A controller after a reset: on a Warm one its stack is put in self-refresh (R408, R411), RETIRE and a lost segment stay. -/
def Emc.afterReset (e : Emc) (warm : Bool) : Emc :=
  if warm then { Emc.reset with retire := e.retire, cut := e.cut, selfRefresh := true } else Emc.reset

def Regs.afterReset (r : Regs) (warm : Bool) : Regs :=
  if warm then { Regs.reset with device := r.device, written := r.written, torus := r.torus, role := r.role } else Regs.reset

/-- The module after a reset, before step 1 of the release. Fuses, flash, host memory, straps and lost standby branches stay; what waits to be
sent to the block stays too. WIDTH_MS is 0 as its After reset column says, also after the low period that caused the reset (R409, R10; log entry 59). -/
def State.afterReset (s : State) (warm : Bool) (source : Nat) : State :=
  { State.reset with
    fields := s.fields.map fun v => v.afterReset warm
    emcs := s.emcs.map fun e => e.afterReset warm
    ports := s.ports.map fun p => { Port.reset with cut := warm && p.cut }
    edge := if warm then s.edge else Mem.reset
    hif := { Hif.reset with mem := s.hif.mem, cut := s.hif.cut }
    procs := s.procs.map fun p => { Processor.reset with cut := p.cut }
    nv := { s.nv with lost := false, running := Image.none, secState := s.nv.fusedState }
    pwr := { Pwr.reset with energy := if warm then s.pwr.energy else 0 }
    clk := { Clk.reset with
      cause := source, level := bit warm 0, mainValid := s.clk.mainValid
      clock := s.clk.clock.afterReset warm, mem := s.clk.mem.afterReset warm, link := s.clk.link.afterReset warm }
    dbg := { Dbg.reset with straps := s.dbg.straps, nonceAt := s.freeCtr, cut := s.dbg.cut }
    regs := s.regs.afterReset warm
    freeCtr := s.freeCtr + 1
    pending := s.pending }

/-! ## Stages (R415-R417) -/

def State.stageAt (s : State) (n : Nat) : Stage := (s.clk.stages[n]?).getD Stage.reset
def State.stageRuns (s : State) (n : Nat) : Bool := (s.stageAt n).result == 1

def State.beginStage (s : State) (n : Nat) : State :=
  let g : Stage := { Stage.reset with result := 1, level := s.clk.level, start := s.clk.count }
  { s with clk := { s.clk with stage := n, stages := s.clk.stages.set n g } }

/-- A stage ends: 2 PASS, 3 PASS_CHANGED, 5 SKIPPED. -/
def State.endStage (s : State) (n result : Nat) (detail : List Nat) : State :=
  let g := { s.stageAt n with result := result, stop := s.clk.count, detail := detail }
  { s with clk := { s.clk with stages := s.clk.stages.set n g } }

/-- S0, S1 or S2 fails: the start-up stops with the standby domain alone running (R416). -/
def State.failStage (s : State) (n reason : Nat) (detail : List Nat) : State :=
  let s := if n = 2 then s.openMain else s
  let g := { s.stageAt n with result := 4, reason := reason, stop := s.clk.count, detail := detail }
  ({ s with clk := { s.clk with stages := s.clk.stages.set n g } }).alert 0

/-- Two free values and a third, where a record's detail has no stated value. -/
def State.draw3 (s : State) : List Nat × State :=
  ((List.range 3).map fun i => (Config.word (s.freeCtr + i)).toNat, { s with freeCtr := s.freeCtr + 3 })

/-- Bitmap of fields. -/
def State.fieldMap (s : State) (f : Field → Bool) : Nat := (s.fields.zipIdx).foldl (fun n vi => n + bit (f vi.1) vi.2) 0

/-- S2's details: fields fenced for supply, the source, the network clock in MHz. -/
def State.s2Detail (s : State) : List Nat := [s.fieldMap (·.supply), s.clk.source, 50 * pointFreq s.pwr.netPoint, 0]

/-- The bounds of S0, S1 and S2 in cycles of the standby count (R415). -/
def stageBound (n : Nat) : Nat := if n = 0 then 20000000 else if n = 1 then 30000000 else 163840

/-- S0, S1 or S2 has overrun its bound: it fails with TIMEOUT (R415, R417). -/
def State.stageTimeout (s : State) : State :=
  let n := s.clk.stage
  if 2 < n || !s.stageRuns n || s.clk.count ≤ (s.stageAt n).start + stageBound n then s
  else if n = 2 then s.failStage 2 1 s.s2Detail
  else
    let (w, s) := s.draw3
    s.failStage n 1 (w ++ [0])

/-! ## Resets as commands (R403-R406) -/

/-- Step 1 of the release: the standby domain, straps sampled (17 R536), S0 begins. -/
def State.stepOne (s : State) : State :=
  ({ s with clk := { s.clk with step := 1, count := 0 }, dbg := { s.dbg with sampled := s.dbg.straps } }).beginStage 0

/-- 12 R403, R405, R411: the standby input has become valid; lost standby branches are supplied again. -/
def execPowerOnReset (s : State) : Host.Outcome State Fault Refusal :=
  let s := s.afterReset false 0
  .next { s with hif := { s.hif with cut := false }, dbg := { s.dbg with cut := false }
                 procs := s.procs.map fun p => { p with cut := false } }

/-- Classes of R404: 0 filtered, 1 short, 2 pulse, 3 between, 4 hold. -/
def lowClass (us : Nat) : Nat :=
  if us = 0 then 0 else if us < 1000 then 1 else if us ≤ 10000 then 2 else if us < 100000 then 3 else 4

/-- The other class that R404 allows within 2 % of a boundary. -/
def lowOther (us : Nat) : Option Nat :=
  if 980 ≤ us ∧ us ≤ 1020 then some (if us < 1000 then 2 else 1)
  else if 9800 ≤ us ∧ us ≤ 10200 then some (if us ≤ 10000 then 3 else 2)
  else if 98000 ≤ us ∧ us ≤ 102000 then some (if us < 100000 then 4 else 3)
  else none

/-- A low period of RESET_N, measured (R404-R406): near a boundary a free value decides. A hold stays before step 1. -/
def State.lowPeriod (s : State) (us : Nat) : State :=
  if s.pwr.state == .off then s
  else
    let (n, s) := s.draw
    let c := match lowOther us with
      | some d => if n % 2 = 0 then lowClass us else d
      | none => lowClass us
    let ms := us / 1000
    if c = 0 then s
    else if c = 1 ∨ c = 3 then
      { s with clk := { s.clk with ignored := true, ignoredCount := min 255 (s.clk.ignoredCount + 1), widthMs := min 255 ms } }
    else
      let running := decide (s.clk.step < 16) && s.clk.level == 0
      if c = 2 then (s.afterReset ((s.nv.fuse 3).getLsbD 0 && !running) 2).stepOne else s.afterReset false 1

/-- 12 R404. -/
def execResetPulse (widthUs : Nat) (s : State) : Host.Outcome State Fault Refusal := .next (s.lowPeriod widthUs)

/-- 12 R404: the reset begins at the 100 ms mark; step 1 follows the rising edge. -/
def execResetHold (widthMs : Nat) (s : State) : Host.Outcome State Fault Refusal := .next (s.lowPeriod (1000 * widthMs))

/-- 14 R481, R483, 01 R36: everything stops; what is not in fuses or flash is lost. -/
def execStandbyInputLoss (s : State) : Host.Outcome State Fault Refusal :=
  let s := s.afterReset false 0
  .next { s with pwr := { s.pwr with state := .off } }

/-! ## The release (R411, R412) -/

/-- A field of a group is released; one that is fenced for its supply stays off. -/
def Field.release (v : Field) : Field :=
  if v.supply then v else ({ v with pwrEn := true, rstN := true, cycles := 0 } : Field).toPoint 4

/-- Squall causes that were there before the main domains: each adds its fields (14 R476, R478). -/
def State.lateSquall (s : State) : State :=
  if s.pwr.causes = 0 then s
  else
    let k := ((List.range 6).find? fun i => s.pwr.causes.getLsbD i).getD 0
    s.enterSquall k fun f => s.pwr.causes >>> 1 != 0 || s.pwr.junction.getLsbD f

/-- A domain beside the fields is released; its supply is within limits while the main input is valid (log entry 90). -/
def Domain.released : Domain := { pwrEn := true, pwrOk := true, rstN := true }

/-- The link domain is released: S2 ends, S3 begins. -/
def State.releaseLinks (s : State) : State :=
  let s : State := { s with clk := { s.clk with step := 16, link := Domain.released }, pwr := { s.pwr with state := .active, netPoint := 4 } }
  let s := s.applyPorts
  let s := s.endStage 2 (if s.fields.any fun (v : Field) => v.supply then 3 else 2) s.s2Detail
  (s.beginStage 3).lateSquall

/-- 12 R411, R414: the next step of the release: 1 standby, 2 clock, 3 memory, 4 to 15 fields, 16 links. With the main input lost S2 fails. -/
def execReleaseStep (s : State) : Host.Outcome State Fault Refusal :=
  let k := s.clk.step
  if s.pwr.state == .off || s.pwr.stopped then .next s
  else if k = 0 then .next s.stepOne
  else if !s.stageRuns 2 || !s.clk.selected then .next s
  else if !s.clk.mainValid then .next (s.failStage 2 6 s.s2Detail)
  else if k = 1 then .next { s with clk := { s.clk with step := 2, clock := Domain.released } }
  else if k = 2 then .next { s with clk := { s.clk with step := 3, mem := Domain.released } }
  else if k < 15 then
    let g := k - 3
    let s : State := { s with fields := (s.fields.zipIdx).map fun vi => if vi.2 / 4 = g then vi.1.release else vi.1 }
    .next { s with clk := { s.clk with step := k + 1 } }
  else if k = 15 then .next s.releaseLinks
  else .next s

/-- 12 R412: no DOM_PWR_OK 4,096 reference cycles after the release of a field. -/
def execDomainSupplyTimeout (field : Nat) (s : State) : Host.Outcome State Fault Refusal :=
  let v := s.field field
  if !v.pwrEn || !v.rstN || v.pwrOk then .next s
  else
    let s := (s.cutField field).reportSupply field
    .next (if (s.stageAt 2).result = 2 ∨ (s.stageAt 2).result = 3 then s.endStage 2 3 s.s2Detail else s)

/-! ## S0, S1, S2 (R415, R416, R428-R432, 13 R462) -/

/-- What the ROM accepts: an image that can be read, is stored whole and passes the checks of FW_STAGE (16 R519). -/
def Nv.boots (n : Nv) (i : Image) (r : FlashReading) : Bool := r.readable && i.good && n.permits i

/-- 12 R415, R416, 16 R519: image A, from the device that the latest committed entry names, or else image B. -/
def execImageVerify (a b : FlashReading) (s : State) : Host.Outcome State Fault Refusal :=
  if !s.stageRuns 0 then .next s
  else
    let n := s.nv
    let imageA := (n.slots[n.select]?).getD Image.none
    let imageB := (n.slots[1 - n.select]?).getD Image.none
    let (w, s) := s.draw3
    let use (s : State) (i : Image) (which : Nat) : State :=
      let s : State := { s with nv := { s.nv with running := i } }
      (s.endStage 0 2 [which, i.svn, w.headD 0, 0]).beginStage 1
    if n.boots imageA a then .next (use s imageA 0)
    else if n.boots imageB b then .next (use s imageB 1)
    else .next (s.failStage 0 2 (w ++ [0]))

/-- The survey copy that S1 uses (R428). -/
def Nv.chooseCopy (n : Nv) (ok0 ok1 : Bool) : Option Nat :=
  let c (i : Nat) : Survey := (n.copies[i]?).getD Survey.factory
  let good (i : Nat) (ok : Bool) : Bool := ok && (c i).good && (c i).mine
  match good 0 ok0, good 1 ok1 with
  | true, true => some (if (c 0).seq < (c 1).seq then 1 else 0)
  | true, false => some 0
  | false, true => some 1
  | false, false => none

/-- 12 R415, R428, R429, 13 R462: the processors start, the journal is settled, the record is chosen. While a non-volatile block holds back what
the journal has to program, S1 waits (14 R482). -/
def execChartroomStart (copy0Ok copy1Ok : Bool) (pcieGen pcieWidth : Nat) (s : State) : Host.Outcome State Fault Refusal :=
  if !s.stageRuns 1 || (s.nvBlocked && (s.discardTxns).1.nv.flash != s.nv.flash) then .next s
  else
    let (s, journal) := s.discardTxns
    let s : State := { s with procs := s.procs.map fun (p : Processor) => { p with up := !p.cut } }
    let link := pcieGen % 16 + pcieWidth % 16 * 16
    match s.nv.chooseCopy copy0Ok copy1Ok with
    | none =>
      let (w, s) := s.draw3
      let s : State := { s with nv := { s.nv with lost := true } }
      .next (s.failStage 1 3 [link, w.headD 0, journal, (w.drop 1).headD 0])
    | some i =>
      let v := (s.nv.copies[i]?).getD Survey.factory
      let s : State := { s with nv := { s.nv with used := i, survey := v } }
      .next ((s.endStage 1 2 [link, i, journal, v.version]).beginStage 2)

/-- 12 R411, R431, R432, 17 R543: the source; DOM_PWR_OK as the supplies have it. -/
def execReferenceSelection (aGood bGood mainValid pllLocked : Bool) (supplyOk : List Bool) (s : State) : Host.Outcome State Fault Refusal :=
  if !s.stageRuns 2 || s.clk.selected || s.clk.step != 1 then .next s
  else
    let src := if aGood then 0 else 1
    let clk : Clk := { s.clk with aGood := aGood, bGood := bGood, mainValid := mainValid }
    let s : State := { s with clk := clk }
    if !aGood && !bGood then .next (s.failStage 2 4 s.s2Detail)
    else
      let s : State := { s with clk := { s.clk with source := src } }
      if !mainValid then .next (s.failStage 2 6 s.s2Detail)
      else if !pllLocked then
        .next (s.failStage 2 5 s.s2Detail)
      else
        let ok (v : Field) (i : Nat) : Field := { v with pwrOk := (supplyOk[i]?).getD false }
        .next { s with clk := { s.clk with selected := true }, fields := (s.fields.zipIdx).map fun vi => ok vi.1 vi.2 }

/-! ## S3 (R418, R419) -/

/-- The fields of a join and the side of the first one it lies on; a half-join has one field. -/
def joinFields (j : Nat) : Nat × Option (Nat × Nat) :=
  if j < 48 then (j, none)
  else if j < 90 then
    let f := (j - 48) / 7 * 8 + (j - 48) % 7
    (f, some (1, f + 1))
  else (j - 90, some (2, j - 82))

/-- The wires of each group of a join that need a spare: those that the stored map steers, which S3 reapplies before the test, and those
that the test found failing beside them (R419, log entry 91). -/
def addGroups : List Nat → List Nat → List Nat
  | a :: l, b :: m => (a + b) :: addGroups l m
  | [], m => m
  | l, [] => l

def joinSpares (stored : List (Nat × List Nat)) (r : JoinResult) : List Nat := addGroups (cellGet [] stored r.join) r.failing

/-- A group has two spare wires. -/
def tooMany (groups : List Nat) : Bool := groups.any fun n => decide (2 < n)

/-- A field is fenced as a whole. -/
def State.fenceField (s : State) (f : Nat) : State :=
  let v := s.field f
  (s.setField f { v with fenced := true, side := 15 }).fenceAround f false

/-- What a failed join fences. -/
def State.fenceJoin (s : State) (j : Nat) : State :=
  match joinFields j with
  | (f, none) => s.fenceField f
  | (f, some (d, g)) => (s.fenceSide f d false).fenceSide g (oppositeSide d) false

/-- 12 R415, R418, R419: a join the results do not name has no failing wire beside those that the stored repair map steers. A changed map is stored
in the survey record. -/
def execStitchWireTest (results : List JoinResult) (s : State) : Host.Outcome State Fault Refusal :=
  if !s.stageRuns 3 then .next s
  else
    let results := results.filter fun r => decide (r.join < 130)
    let stored := s.nv.survey.stitch
    let bad := ((results.filter fun r => tooMany (joinSpares stored r)).map (·.join)).foldl (fun l j => insertNat j l) []
    let good := results.filter fun r => !bad.contains r.join && r.failing.any (· != 0)
    let repair := good.foldl (fun l r => listPut r.join (joinSpares stored r) l) stored
    let steered := repair.foldl (fun n e => n + if bad.contains e.1 then 0 else e.2.foldl (· + ·) 0) 0
    let s := bad.foldl State.fenceJoin s
    let s := if repair = stored then s else s.survey fun v => { v with stitch := repair }
    let s : State := { s with nv := { s.nv with survey := { s.nv.survey with failedJoins := bad } } }
    let (w, s) := s.draw
    let s := s.endStage 3 (if bad.isEmpty then 2 else 3) [130, steered, bad.length, bad.headD w]
    .next (if s.clk.level = 0 then s.beginStage 4 else ((s.beginStage 4).endStage 4 5 [0, 0, 0, 0]).beginStage 5)

/-! ## S4 (R421-R423, R427) -/

/-- A place some columns and rows away. -/
def physAt (ph : Nat) (dx dy : Int) : Option Nat :=
  let x : Int := (ph % 1248 : Nat) + dx
  let y : Int := (ph / 1248 : Nat) + dy
  if 0 ≤ x ∧ x < 1248 ∧ 0 ≤ y ∧ y < 768 then some (1248 * y.toNat + x.toNat) else none

/-- The logical plot 16 away, which an express link joins (08 R280). -/
def State.expressEnd (s : State) (ph : Nat) (dx dy : Int) : Option Nat :=
  match logicalOf s.nv.survey.proj ph with
  | none => none
  | some q =>
    let x : Int := q.x + dx
    let y : Int := q.y + dy
    if 0 ≤ x ∧ x < 1200 ∧ 0 ≤ y ∧ y < 768 then some (s.phys x.toNat y.toNat) else none

/-- The other end of a connection, numbered as TEST_LINKS numbers them (R427). -/
def State.connEnd (s : State) (ph k : Nat) : Option Nat :=
  match k with
  | 0 => physAt ph 1 0
  | 1 => physAt ph 2 0
  | 2 => physAt ph 3 0
  | 3 => physAt ph (-1) 0
  | 4 => physAt ph (-2) 0
  | 5 => physAt ph (-3) 0
  | 6 => physAt ph 0 (-1)
  | 7 => physAt ph 1 (-1)
  | 8 => physAt ph (-1) (-1)
  | 9 => physAt ph 0 1
  | 10 => physAt ph 1 1
  | 11 => physAt ph (-1) 1
  | 12 => s.expressEnd ph 16 0
  | 13 => s.expressEnd ph (-16) 0
  | 14 => s.expressEnd ph 0 (-16)
  | _ => s.expressEnd ph 0 16

/-- What a test said of an adjacent plot. -/
def reports (results : List PlotTest) (ph d : Nat) : Bool :=
  match results.find? fun r => r.phys == ph with
  | some r => r.nbFail.getLsbD d
  | none => false

def ownFail (results : List PlotTest) (ph : Nat) : Bool :=
  match results.find? fun r => r.phys == ph with
  | some r => r.selfFail
  | none => false

/-- The sides from which an adjacent plot that passed its own tests reports a plot; and how many such adjacent plots there are. -/
def State.judges (s : State) (results : List PlotTest) (ph : Nat) : List Nat × Nat :=
  let near := (List.range 4).filterMap fun d => match physNear ph d with
    | some q => if s.testable q && !ownFail results q then some (d, q) else none
    | none => none
  ((near.filter fun dq => reports results dq.2 (oppositeSide dq.1)).map (·.1), near.length)

/-- Own tests failed, or a majority judged it (R422). -/
def State.failsAlone (s : State) (results : List PlotTest) (ph : Nat) : Bool :=
  let (l, n) := s.judges results ph
  ownFail results ph || decide (n < 2 * l.length)

/-- A datapath to the north or west fails between two plots that passed otherwise (R422). -/
def State.failsPath (s : State) (results : List PlotTest) (ph : Nat) : Bool :=
  [0, 3].any fun d => match physNear ph d with
    | none => false
    | some q => s.testable q && !s.failsAlone results q && (reports results ph d || reports results q (oppositeSide d))

/-- Plots that a result bears on. -/
def State.touched (s : State) (results : List PlotTest) : List Nat :=
  ((results.flatMap fun r => r.phys :: (List.range 4).filterMap fun d => if r.nbFail.getLsbD d then physNear r.phys d else none).foldl
    (fun l ph => insertNat ph l) []).filter s.testable

/-- The test block that triangulation leaves. -/
def State.blockOf (s : State) (results : List PlotTest) (ph : Nat) : State :=
  let p := s.plot ph
  let judged := (s.judges results ph).1.foldl (fun n d => n + 2 ^ d) 0
  let t : TestBlock := match results.find? fun r => r.phys == ph with
    | some r => { p.test with done := true, selfFail := r.selfFail, nbFail := r.nbFail, links := r.links, sig := r.sig, prog := Config.triangProg }
    | none => { p.test with done := true, sig := Config.triangSig ph, prog := Config.triangProg }
  s.setPlot ph { p with test := { t with judged := BitVec.ofNat 4 judged } }

/-- A plot that failed its test goes from TEST to FENCED (R426); its FENCE bit is set in S5 (R424). -/
def State.failTest (s : State) (ph : Nat) : State := s.setPlot ph { s.plot ph with st := .fenced }

/-- 12 R415, R421-R423, R426, R427: a plot the results do not name has passed and found nothing. -/
def execTriangulation (results : List PlotTest) (s : State) : Host.Outcome State Fault Refusal :=
  if !s.stageRuns 4 || s.clk.level != 0 || !s.serves .theodolite then .next s
  else
    let results := results.filter fun r => physOk r.phys && s.testable r.phys
    let touched := s.touched results
    let newDead := touched.filter fun ph => s.failsAlone results ph || s.failsPath results ph
    let live := (List.range 48).filter s.powered
    let skipped := s.nv.survey.dead.filter fun ph => s.powered (fieldOfPhys ph) && !s.testable ph
    let kept := s.nv.survey.dead.filter fun ph => !s.testable ph
    let fresh := newDead.filter fun ph => !s.isDead ph
    let dead := newDead.foldl (fun l ph => insertNat ph l) kept
    let conns := results.flatMap fun r =>
      if dead.contains r.phys then []
      else (List.range 16).filterMap fun k =>
        let other := match s.connEnd r.phys k with
          | some q => s.powered (fieldOfPhys q) && !dead.contains q
          | none => true
        if r.links.getLsbD k && other && !s.nv.survey.conns.contains (r.phys, k) then some (r.phys, k) else none
    let s := touched.foldl (fun (s : State) ph => s.blockOf results ph) s
    let s := newDead.foldl State.failTest s
    let fenced := s.nv.survey.fenced.filter fun f => !s.powered f
    let v : Survey := { s.nv.survey with dead := dead, conns := s.nv.survey.conns ++ conns, fenced := fenced }
    let s : State := { s with nv := { s.nv with survey := v }, clk := { s.clk with tested := true } }
    let (w, s) := s.draw
    let changed := !newDead.isEmpty || !conns.isEmpty
    let s := s.endStage 4 (if changed then 3 else 2) [19968 * live.length - skipped.length, fresh.length, conns.length, fresh.headD w]
    .next (s.beginStage 5)

/-! ## S5 (R424) -/

/-- Members of one list that are not in the other, both ways. -/
def differing {α : Type} [BEq α] (a b : List α) : Nat :=
  (a.filter fun x => !b.contains x).length + (b.filter fun x => !a.contains x).length

/-- A dead plot is fenced and marked. -/
def State.markDead (s : State) (ph : Nat) : State :=
  let p := s.plot ph
  s.setPlot ph { p with fence := true, st := .fenced, test := { p.test with dead := true } }

/-- 12 R424, 10 R372, R373. -/
def execGazetteerBuild (s : State) : Host.Outcome State Fault Refusal :=
  if !s.stageRuns 5 || !s.serves .theodolite then .next s
  else
    let stored := (s.nv.copies[s.nv.used]?).getD Survey.factory
    let v := s.nv.survey
    let reaches := (v.dead.map reachOfPhys).eraseDups
    let changed := reaches.filterMap fun r => match s.reachPlan r with
      | some q => if q = cellGet 25 v.proj r then none else some (r, q)
      | none => none
    let proj := changed.foldl (fun (l : Projection) (rq : Nat × Nat) => cellSet 25 rq.1 rq.2 l) v.proj
    let fenced := (List.range 48).filter fun f => (s.field f).supply
    let v : Survey := { v with proj := proj, fenced := fenced }
    let s : State := { s with nv := { s.nv with survey := v }, clk := { s.clk with built := true } }
    let s := v.dead.foldl State.markDead s
    let s := (List.range 48).foldl (fun (s : State) f => if (s.field f).fenced then s.fenceAround f false else s) s
    let s := s.rewriteRoutes
    let n := differing v.dead stored.dead + differing v.failedJoins stored.failedJoins + differing v.conns stored.conns
      + differing v.fenced stored.fenced + differing v.retired stored.retired
    let differs := n != 0 || !changed.isEmpty
    let s := if differs then s.survey Survey.bump else s
    let void := (v.dead.filter fun ph => (logicalOf proj ph).isSome).length
    let s := s.endStage 5 (if differs then 3 else 2) [void, changed.length, s.nv.survey.version, n]
    .next (s.beginStage 6)

/-! ## S6, S7, S8 (R415, R425) -/

/-- Bitmap of a list of numbers. -/
def bitmapOf (l : List Nat) : Nat := l.foldl (fun n i => n ||| 2 ^ i) 0

/-- A stack after training. -/
def Emc.trainedAs (e : Emc) (ok : Bool) : Emc := { e with trained := ok, retired := !ok || e.retire, selfRefresh := false }

/-- 12 R408, R415, R425, 09 R310, R334, R339: a stack the results do not name has overrun the stage; one change of the gazetteer. On a Cold reset
stacks are trained afresh, and new values are stored in the survey record; on a Warm one the stored values are restored and verified, and nothing is
repaired. -/
def execEdgeMemoryTraining (results : List StackTraining) (s : State) : Host.Outcome State Fault Refusal :=
  if !s.stageRuns 6 then .next s
  else
    let ok (c : Nat) : Bool := !(s.emc c).cut && results.any fun r => r.stack == c && r.passed
    let s : State := { s with emcs := (s.emcs.zipIdx).map fun ec => ec.1.trainedAs (ok ec.2), edge := if s.clk.level = 0 then Mem.reset else s.edge }
    let retired := (List.range 24).filter fun c => (s.emc c).retired
    let fresh := retired.filter fun c => !s.nv.survey.retired.contains c
    let cold := s.clk.level == 0
    let old := s.nv.survey
    let training := if cold then results.foldl (fun l r => if r.passed then cellSet 0 r.stack r.repairs l else l) old.training else old.training
    let v : Survey := { old with training := training, retired := retired }
    let s := if v = old then s else s.survey fun _ => if retired = old.retired then v else v.bump
    let s := fresh.foldl (fun (s : State) c => s.event 0x0E [c] none) s
    let repairs := if cold then results.foldl (fun n r => n + r.repairs) 0 else 0
    let trained := (List.range 24).filter fun c => (s.emc c).trained
    let failed := (List.range 24).any fun c => !ok c && !(s.emc c).retire
    let s := s.endStage 6 (if failed then 3 else 2) [bitmapOf trained, bitmapOf retired, repairs, s.clk.level]
    .next (s.beginStage 7)

/-- Bitmap of ports by state. -/
def State.portMap (s : State) (f : LinkState → Bool) : Nat := bitmapOf ((List.range 16).filter fun p => f (s.port p).st)

/-- The ports that have never left DETECT since the reset (R417). -/
def State.portsStill (s : State) : Nat := bitmapOf ((List.range 16).filter fun p => (s.port p).st == .detect && !(s.port p).left)

/-- 12 R415, R416, R425: S7 ends; a port still in training carries on by itself. -/
def execWengaLinkTraining (s : State) : Host.Outcome State Fault Refusal :=
  if !s.stageRuns 7 then .next s
  else
    let stuck (l : LinkState) : Bool := l == .unnamed || l == .conflict || l == .mismatch
    let late := s.portMap fun l => !(l == .active || stuck l || l == .off)
    let s := s.endStage 7 (if late = 0 then 2 else 3) [s.portMap (· == .active), s.portMap stuck, s.portsStill, 0]
    .next (s.beginStage 8)

/-- 12 R415, R417, 15 R493. -/
def execReady (s : State) : Host.Outcome State Fault Refusal :=
  if !s.stageRuns 8 then .next s
  else
    let s := s.endStage 8 2 [s.clk.count, s.nv.survey.version, 0, 0]
    .next { s with clk := { s.clk with ready := true } }

/-! ## Clocks (R431-R434) -/

/-- CLK_LOST is reported. -/
def State.clkEvent (s : State) : State := s.event 0x06 [s.clkStatus] none

/-- REFCLK_A fails: the source changes if it was A (R433). -/
def State.failA (s : State) : State :=
  if s.clk.aLost && !s.clk.aGood && s.clk.source != 0 then s
  else
    let was := s.clk.source == 0
    let src := if was then (if s.clk.bGood then 1 else 2) else s.clk.source
    let s : State := { s with clk := { s.clk with aLost := true, aGood := false, aAlert := s.clk.aAlert || was, source := src } }
    if was then (s.alert 1).clkEvent else s

/-- REFCLK_B fails: the oscillator holds its last trim; nothing else switches (R434). -/
def State.failB (s : State) : State :=
  if s.clk.bLost && !s.clk.bGood then s
  else
    let src := if s.clk.source = 1 then 2 else s.clk.source
    let s : State := { s with clk := { s.clk with bLost := true, bGood := false, source := src } }
    s.clkEvent

/-- REFCLK_B has failed and has not passed since: A is then checked only for missing edges (R434). -/
def Clk.bOut (c : Clk) : Bool := !c.bGood && (c.bLost || c.selected)

/-- 12 R431, R433, R434: a window of 2^16 REFCLK_B cycles, from S1 on; the Bools say that a reference is within 250 ppm of the internal
oscillator, which is trimmed to a REFCLK_B that passes. -/
def execSupervisionWindow (aVsBPpm : Int) (aOk bOk : Bool) (s : State) : Host.Outcome State Fault Refusal :=
  if s.clk.stage = 0 then .next s
  else
    let apart := decide (500 < aVsBPpm ∨ aVsBPpm < -500)
    let aOff := apart && !aOk
    let aBad := aOff && !s.clk.bOut
    let bBad := apart && !bOk
    let src := if !bBad && s.clk.source == 2 then 1 else s.clk.source
    let s : State := { s with clk := { s.clk with
      aVsB := aVsBPpm, aGood := !aOff || s.clk.aGood, aAlert := s.clk.aAlert && aOff, bGood := !bBad || s.clk.bGood, source := src } }
    let s := if bBad then s.failB else s
    .next (if aBad then s.failA else s)

/-- 12 R433: no edge of REFCLK_A for 16 cycles of the internal oscillator. -/
def execClkLost (s : State) : Host.Outcome State Fault Refusal := .next (if s.clk.stage = 0 then s else s.failA)

/-- 12 R434: no edge of REFCLK_B. -/
def execRefclkBFail (s : State) : Host.Outcome State Fault Refusal := .next (if s.clk.stage = 0 then s else s.failB)

/-! ## Stitch mode of a field (R420) -/

/-- 12 R420, 13 R437. -/
def execStitchModeEntry (field : Nat) (s : State) : Host.Outcome State Fault Refusal :=
  if !s.serves .theodolite then .next s
  else .next ((s.setField field { s.field field with stitch := true }).faultTouching field 4)

/-- 12 R420. -/
def execStitchModeExit (field : Nat) (s : State) : Host.Outcome State Fault Refusal :=
  if !s.serves .theodolite then .next s
  else .next (s.setField field { s.field field with stitch := false })

end Sys2Proof.Machine
end

