-- ==== Sys2Proof/Machine/Sideband.lean ====
section
/-! DEFINITION. The sounding port (spec/15 R511-R513), the TAP and the debug port (spec/16 R525, R528, R530). What a read answers is in
`State.out`, a NACK in `State.nack`. -/

namespace Sys2Proof.Machine

/-! ## The sounding port -/

/-- The port is served: from S0 on, in the standby domain, while its controller's branch is supplied (R511, 13 R456). -/
def State.sounds (s : State) : Bool := s.pwr.state != .off && decide (1 ≤ s.clk.step) && !s.dbg.cut

/-- Answer a read: the contents of the block, or a NACK. -/
def State.sound (s : State) (b : Option (List Byte)) : State :=
  match (if s.sounds then b else none) with
  | some b => { s with out := b, nack := false }
  | none => { s with out := [], nack := true }

/-- Take a write whose PEC is right; NACK one whose PEC is wrong. -/
def State.soundWrite (s : State) (pecOk : Bool) (f : State → State) : State :=
  if s.sounds && pecOk then { f s with out := [], nack := false } else { s with out := [], nack := true }

/-- R512 code 0x00: 2 bytes of HIF_VERSION, 2 of the device ID, 4 of DEV_STATUS. -/
def execSoundingIdentityRead (s : State) : Host.Outcome State Fault Refusal :=
  .next (s.sound (some (leBytes 2 hifVersion ++ leBytes 2 s.regs.device ++ leBytes 4 s.devStatus)))

/-- R512 codes 0x01 to 0x05: PWR_STATE, PWR_INPUT, PWR_NOW, PWR_EVENTS, COOLANT. -/
def soundPowerOff (code : Nat) : Option Nat :=
  match code with
  | 1 => some 0x00
  | 2 => some 0x08
  | 3 => some 0x0C
  | 4 => some 0x04
  | 5 => some 0x14
  | _ => none

/-- R511, R512. -/
def execSoundingPowerRead (code : Nat) (s : State) : Host.Outcome State Fault Refusal :=
  .next (s.sound ((soundPowerOff code).map fun off => leBytes 4 (s.powerWord off)))

/-- R512 code 0x06. -/
def execSoundingTemperatureRead (s : State) : Host.Outcome State Fault Refusal :=
  .next (s.sound (some (s.fields.map fun (v : Field) => BitVec.ofNat 8 v.hottest)))

/-- R512 codes 0x07 and 0x08. -/
def execSoundingResetClockRead (code : Nat) (s : State) : Host.Outcome State Fault Refusal :=
  .next (s.sound (if code = 7 then some (leBytes 4 s.resetCause) else if code = 8 then some (leBytes 4 s.clkStatus) else none))

/-- R512 codes 0x10 to 0x18, 12 R417. -/
def execSoundingStageRead (code : Nat) (s : State) : Host.Outcome State Fault Refusal :=
  .next (s.sound (if 0x10 ≤ code ∧ code ≤ 0x18 then some (s.stageBytes (code - 0x10)) else none))

/-- R511, R512 code 0x20, 14 R476 cause 5. -/
def execSquallRequest (pecOk : Bool) (s : State) : Host.Outcome State Fault Refusal :=
  .next (s.soundWrite pecOk fun s => s.enterSquall 5 fun _ => true)

/-- R511, R512 code 0x20, 14 R477. -/
def execSquallWithdraw (pecOk : Bool) (s : State) : Host.Outcome State Fault Refusal :=
  .next (s.soundWrite pecOk fun s => s.dropCause 5 true)

/-- R512 code 0x21. -/
def execSoundingBudgetRead (s : State) : Host.Outcome State Fault Refusal := .next (s.sound (some (leBytes 2 s.pwr.sustain)))

/-- R511, R512 code 0x21, 14 R465. -/
def execSoundingBudgetWrite (value : W16) (pecOk : Bool) (s : State) : Host.Outcome State Fault Refusal :=
  .next (s.soundWrite pecOk fun s => s.budgetWrite value.toNat)

/-- Conditions of ALERT_SRC that are present (R512, R513). -/
def State.alertNow (s : State) : BitVec 6 :=
  BitVec.ofNat 6 (bit (s.clk.stages.any fun g => g.result == 4) 0 + bit s.clk.aAlert 1 + bit (s.pwr.state == .squall) 2
    + bit (s.fields.any fun (v : Field) => v.supply) 3 + bit (s.procs.any fun (p : Processor) => p.restarting) 4 + bit s.dbg.thermtrip 5)

/-- R512 code 0x22, R513: the read clears; a condition still present sets its bit again. -/
def execAlertSrcRead (s : State) : Host.Outcome State Fault Refusal :=
  let t := s.sound (some (leBytes 4 s.dbg.alert.toNat))
  .next (if s.sounds then { t with dbg := { t.dbg with alert := s.alertNow } } else t)

/-- The port's address (R511, 17 R536). -/
def State.soundAddress (s : State) : Nat := 0x58 + s.dbg.sampled % 4

/-- R511, R513: answered while ALERT_N is asserted, with the address in the upper seven bits. -/
def execAlertResponseAddress (s : State) : Host.Outcome State Fault Refusal :=
  .next (s.sound (if s.dbg.alert = 0 then none else some (leBytes 1 (2 * s.soundAddress))))

/-! ## PRESENT_N (17 R534, R539) -/

/-- PRESENT_N is tied to the module's ground: low, whatever the power state. The model is of a seated module. -/
def State.presentN (_ : State) : Bool := false

/-! ## The TAP (16 R530) -/

def bitBytes (l : List Bool) : List Byte := l.map fun b => if b then 1 else 0

/-- The one-bit bypass register: what goes in comes out one shift later, a zero first. -/
def bypassed (l : List Bool) : List Bool := (false :: l).take l.length

/-- The debug pins work from step 1 of the release on; before it and in Off they are high impedance (17 R539). -/
def State.tapUp (s : State) : Bool := s.pwr.state != .off && decide (1 ≤ s.clk.step)

/-- A TAP instruction comes in force in place of the one before; nothing drives the pins. -/
def State.tapTo (s : State) (t : Tap) : State := { s with dbg := { s.dbg with tap := t, driven := none } }

/-- A TAP instruction with what it shifts out. -/
def State.tapped (s : State) (t : Tap) (out : List Byte) : State := if s.tapUp then { s.tapTo t with out := out } else s

/-- What EXTEST drives on the pins: only in Standby at Invasive. -/
def State.driving (s : State) : Option (List Bool) := if s.pwr.state == .standby && s.invasive then s.dbg.driven else none

/-- 16 R530. -/
def execJtagBypass (shiftIn : List Bool) (s : State) : Host.Outcome State Fault Refusal := .next (s.tapped .bypass (bitBytes (bypassed shiftIn)))

/-- 16 R530: the value is open. -/
def execJtagIdcode (s : State) : Host.Outcome State Fault Refusal := .next (s.tapped .idcode (leBytes 4 Config.idcode.toNat))

/-- 16 R530: the pins are sampled and shifted out, what is shifted in is preloaded. -/
def execJtagSamplePreload (pins shiftIn : List Bool) (s : State) : Host.Outcome State Fault Refusal :=
  if !s.tapUp then .next s
  else
    let s := s.tapped .sample (bitBytes pins)
    .next { s with dbg := { s.dbg with cells := shiftIn } }

/-- Free bits (log entry 1). -/
def State.freeBits (s : State) (n : Nat) : State × List Bool :=
  ({ s with freeCtr := s.freeCtr + n }, (List.range n).map fun i => (Config.word (s.freeCtr + i)).getLsbD 0)

/-- 16 R525, R530: what the pins show when captured is a free value; where EXTEST takes no effect it is BYPASS. -/
def execJtagExtest (shiftIn : List Bool) (s : State) : Host.Outcome State Fault Refusal :=
  if s.tapUp && s.pwr.state == .standby && s.invasive then
    let (s, l) := s.freeBits shiftIn.length
    let s := s.markInvasive
    .next { s with out := bitBytes l, dbg := { s.dbg with tap := .extest, cells := shiftIn, driven := some shiftIn } }
  else .next (s.tapped .bypass (bitBytes (bypassed shiftIn)))

/-! ## The debug port (16 R525, R528) -/

/-- Bytes in a region: 16 MiB of a partition, 4 MiB of mailbox (15 R505). -/
def regionRoom : DebugRegion → Nat
  | .partition _ => 0x1000000
  | .mailbox => 0x400000

/-- What the debug port has written into a region. -/
def State.regionCells (s : State) : DebugRegion → List Host.Cell
  | .partition p => (s.proc p).partition
  | .mailbox => s.dbg.mailbox

/-- A byte of a region: as written through the debug port, else what the firmware has there, a free value. -/
def regionByte (l : List Host.Cell) (a ctr : Nat) : Byte := (listGet l a).getD ((Config.word ctr).truncate 8)

/-- 16 R525, R530: at Observe, but for the Compass partition; below the level a read returns zero. The private instruction is in force in place of the one
before. -/
def execDebugPortRead (region : DebugRegion) (addr size : Nat) (s : State) : Host.Outcome State Fault Refusal :=
  if !s.tapUp || decide (regionRoom region < addr + size) then .next s
  else if s.dbg.level = 0 ∨ region = .partition .compass then .next { s.tapTo .chartroom with out := zeros size }
  else
    let s := s.tapTo .chartroom
    let l := s.regionCells region
    .next { s with out := (List.range size).map fun i => regionByte l (addr + i) (s.freeCtr + i), freeCtr := s.freeCtr + size }

/-- Processors that the debug port acts on, when it does. -/
def State.debugActs (s : State) (p : Proc) : Bool := s.invasive && p != .compass && !(s.proc p).cut

/-- A debug-port access that writes: the private instruction comes in force (R530). -/
def State.byDebugPort (s : State) (f : State → State) : Host.Outcome State Fault Refusal :=
  .next (if s.tapUp then f (s.tapTo .chartroom) else s)

/-- 16 R525, R528. -/
def execDebugPortHalt (proc : Proc) (s : State) : Host.Outcome State Fault Refusal :=
  s.byDebugPort fun s => if !s.debugActs proc || !(s.proc proc).up then s
  else (s.setProc proc { s.proc proc with halted := true }).markInvasive

/-- 16 R525: one step of a halted processor's firmware, whose effect on its partition is open. -/
def execDebugPortStep (proc : Proc) (s : State) : Host.Outcome State Fault Refusal :=
  s.byDebugPort fun s => if !s.debugActs proc || !(s.proc proc).halted then s
  else (s.setProc proc { s.proc proc with partition := [] }).markInvasive

/-- 16 R525. -/
def execDebugPortWrite (proc : Proc) (addr size : Nat) (value : W64) (s : State) : Host.Outcome State Fault Refusal :=
  let n := min size 8
  s.byDebugPort fun s => if !s.debugActs proc || decide (0x1000000 < addr + n) then s
  else
    let b := leBytes n value.toNat
    let l := (b.zipIdx).foldl (fun l bi => listPut (addr + bi.2) bi.1 l) (s.proc proc).partition
    (s.setProc proc { s.proc proc with partition := l }).markInvasive

end Sys2Proof.Machine
end

