-- ==== Sys2Proof/Machine/Dispatch.lean ====
section
/-! DEFINITION. One arm for each command of the table, each a direct call of its meaning. -/

namespace Sys2Proof.Machine

def exec (i : Instr) (s : State) : Host.Outcome State Fault Refusal :=
  match i with
  | .ringSetup => Sys2Proof.Machine.execRingSetup s
  | .load atlas => Sys2Proof.Machine.execLoad atlas s
  | .run => Sys2Proof.Machine.execRun s
  | .release => Sys2Proof.Machine.execRelease s
  | .drain => Sys2Proof.Machine.execDrain s
  | .reopen => Sys2Proof.Machine.execReopen s
  | .restore => Sys2Proof.Machine.execRestore s
  | .swap atlas => Sys2Proof.Machine.execSwap atlas s
  | .swapCancel => Sys2Proof.Machine.execSwapCancel s
  | .reproject => Sys2Proof.Machine.execReproject s
  | .faultArea => Sys2Proof.Machine.execFaultArea s
  | .epochClose => Sys2Proof.Machine.execEpochClose s
  | .test results => Sys2Proof.Machine.execTest results s
  | .calibrate => Sys2Proof.Machine.execCalibrate s
  | .readCtrl => Sys2Proof.Machine.execReadCtrl s
  | .writeCtrl => Sys2Proof.Machine.execWriteCtrl s
  | .fixClocks => Sys2Proof.Machine.execFixClocks s
  | .unfixClocks => Sys2Proof.Machine.execUnfixClocks s
  | .fwStage bundle => Sys2Proof.Machine.execFwStage bundle s
  | .fwActivate => Sys2Proof.Machine.execFwActivate s
  | .surveyRecover => Sys2Proof.Machine.execSurveyRecover s
  | .attest => Sys2Proof.Machine.execAttest s
  | .debugSetLevel => Sys2Proof.Machine.execDebugSetLevel s
  | .debugPresentToken token => Sys2Proof.Machine.execDebugPresentToken token s
  | .debugRelock => Sys2Proof.Machine.execDebugRelock s
  | .edgeExport => Sys2Proof.Machine.execEdgeExport s
  | .edgeImport data => Sys2Proof.Machine.execEdgeImport data s
  | .echo => Sys2Proof.Machine.execEcho s
  | .ledgerTake => Sys2Proof.Machine.execLedgerTake s
  | .backlogRetry zeroed => Sys2Proof.Machine.execBacklogRetry zeroed s
  | .hostRead proc => Sys2Proof.Machine.execHostRead proc s
  | .perstN => Sys2Proof.Machine.execPerstN s
  | .hotReset => Sys2Proof.Machine.execHotReset s
  | .functionLevelReset => Sys2Proof.Machine.execFunctionLevelReset s
  | .pcieLinkDown => Sys2Proof.Machine.execPcieLinkDown s
  | .badAccess isWrite off len => Sys2Proof.Machine.execBadAccess isWrite off len s
  | .registerWrite target data => Sys2Proof.Machine.execRegisterWrite target data s
  | .pagedRead page off size way => Sys2Proof.Machine.execPagedRead page off size way s
  | .pagedWrite page off data way => Sys2Proof.Machine.execPagedWrite page off data way s
  | .cwinSelWrite n value => Sys2Proof.Machine.execCwinSelWrite n value s
  | .memWindowRead phys off size => Sys2Proof.Machine.execMemWindowRead phys off size s
  | .memWindowWrite phys off size value => Sys2Proof.Machine.execMemWindowWrite phys off size value s
  | .accDataWrite phys off size value => Sys2Proof.Machine.execAccDataWrite phys off size value s
  | .haltReq phys value => Sys2Proof.Machine.execHaltReq phys value s
  | .step phys => Sys2Proof.Machine.execStep phys s
  | .fenceSet phys => Sys2Proof.Machine.execFenceSet phys s
  | .fenceClear phys => Sys2Proof.Machine.execFenceClear phys s
  | .placeDeviceIdWrite value => Sys2Proof.Machine.execPlaceDeviceIdWrite value s
  | .torusWrite value => Sys2Proof.Machine.execTorusWrite value s
  | .portRoleWrite value => Sys2Proof.Machine.execPortRoleWrite value s
  | .pwrBudgetWrite value => Sys2Proof.Machine.execPwrBudgetWrite value s
  | .wgRetrainWrite port => Sys2Proof.Machine.execWgRetrainWrite port s
  | .wgDisableWrite port value => Sys2Proof.Machine.execWgDisableWrite port value s
  | .emcRetireWrite stack => Sys2Proof.Machine.execEmcRetireWrite stack s
  | .wgLostSrcRead port => Sys2Proof.Machine.execWgLostSrcRead port s
  | .fieldFirstRead field => Sys2Proof.Machine.execFieldFirstRead field s
  | .soundingIdentityRead => Sys2Proof.Machine.execSoundingIdentityRead s
  | .soundingPowerRead code => Sys2Proof.Machine.execSoundingPowerRead code s
  | .soundingTemperatureRead => Sys2Proof.Machine.execSoundingTemperatureRead s
  | .soundingResetClockRead code => Sys2Proof.Machine.execSoundingResetClockRead code s
  | .soundingStageRead code => Sys2Proof.Machine.execSoundingStageRead code s
  | .squallRequest pecOk => Sys2Proof.Machine.execSquallRequest pecOk s
  | .squallWithdraw pecOk => Sys2Proof.Machine.execSquallWithdraw pecOk s
  | .soundingBudgetRead => Sys2Proof.Machine.execSoundingBudgetRead s
  | .soundingBudgetWrite value pecOk => Sys2Proof.Machine.execSoundingBudgetWrite value pecOk s
  | .alertSrcRead => Sys2Proof.Machine.execAlertSrcRead s
  | .alertResponseAddress => Sys2Proof.Machine.execAlertResponseAddress s
  | .jtagBypass shiftIn => Sys2Proof.Machine.execJtagBypass shiftIn s
  | .jtagIdcode => Sys2Proof.Machine.execJtagIdcode s
  | .jtagSamplePreload pins shiftIn => Sys2Proof.Machine.execJtagSamplePreload pins shiftIn s
  | .jtagExtest shiftIn => Sys2Proof.Machine.execJtagExtest shiftIn s
  | .debugPortRead region addr size => Sys2Proof.Machine.execDebugPortRead region addr size s
  | .debugPortHalt proc => Sys2Proof.Machine.execDebugPortHalt proc s
  | .debugPortStep proc => Sys2Proof.Machine.execDebugPortStep proc s
  | .debugPortWrite proc addr size value => Sys2Proof.Machine.execDebugPortWrite proc addr size value s
  | .noOperation p => Sys2Proof.Machine.execNoOperation p s
  | .endFiring p => Sys2Proof.Machine.execEndFiring p s
  | .switchRequest p => Sys2Proof.Machine.execSwitchRequest p s
  | .tensorMac p => Sys2Proof.Machine.execTensorMac p s
  | .tensorClearMac p => Sys2Proof.Machine.execTensorClearMac p s
  | .tensorAddWords p => Sys2Proof.Machine.execTensorAddWords p s
  | .clearTile p => Sys2Proof.Machine.execClearTile p s
  | .vectorAdd p => Sys2Proof.Machine.execVectorAdd p s
  | .vectorSubtract p => Sys2Proof.Machine.execVectorSubtract p s
  | .vectorMultiply p => Sys2Proof.Machine.execVectorMultiply p s
  | .vectorFma p => Sys2Proof.Machine.execVectorFma p s
  | .vectorMin p => Sys2Proof.Machine.execVectorMin p s
  | .vectorMax p => Sys2Proof.Machine.execVectorMax p s
  | .vectorCompare p => Sys2Proof.Machine.execVectorCompare p s
  | .vectorSelect p => Sys2Proof.Machine.execVectorSelect p s
  | .vectorAbsoluteValue p => Sys2Proof.Machine.execVectorAbsoluteValue p s
  | .vectorNegate p => Sys2Proof.Machine.execVectorNegate p s
  | .vectorConvert p => Sys2Proof.Machine.execVectorConvert p s
  | .exp2 p => Sys2Proof.Machine.execExp2 p s
  | .log2 p => Sys2Proof.Machine.execLog2 p s
  | .reciprocal p => Sys2Proof.Machine.execReciprocal p s
  | .rsqrt p => Sys2Proof.Machine.execRsqrt p s
  | .sinOfPhase p => Sys2Proof.Machine.execSinOfPhase p s
  | .cosOfPhase p => Sys2Proof.Machine.execCosOfPhase p s
  | .move p => Sys2Proof.Machine.execMove p s
  | .edgeRead p => Sys2Proof.Machine.execEdgeRead p s
  | .edgeWrite p => Sys2Proof.Machine.execEdgeWrite p s
  | .send p => Sys2Proof.Machine.execSend p s
  | .sendTile p => Sys2Proof.Machine.execSendTile p s
  | .ringRelease p => Sys2Proof.Machine.execRingRelease p s
  | .finish p => Sys2Proof.Machine.execFinish p s
  | .beaconAdd p => Sys2Proof.Machine.execBeaconAdd p s
  | .beaconWait p => Sys2Proof.Machine.execBeaconWait p s
  | .beaconSet p => Sys2Proof.Machine.execBeaconSet p s
  | .beaconWaitSatisfied p => Sys2Proof.Machine.execBeaconWaitSatisfied p s
  | .contourArrive p => Sys2Proof.Machine.execContourArrive p s
  | .contourWait p => Sys2Proof.Machine.execContourWait p s
  | .contourArriveAndWait p => Sys2Proof.Machine.execContourArriveAndWait p s
  | .commitOpen p => Sys2Proof.Machine.execCommitOpen p s
  | .commit p => Sys2Proof.Machine.execCommit p s
  | .commitAbort p => Sys2Proof.Machine.execCommitAbort p s
  | .joinParcelCommit p => Sys2Proof.Machine.execJoinParcelCommit p s
  | .joinDecision p => Sys2Proof.Machine.execJoinDecision p s
  | .joinConfirm p => Sys2Proof.Machine.execJoinConfirm p s
  | .sequencerMismatch p => Sys2Proof.Machine.execSequencerMismatch p s
  | .operationComplete p op => Sys2Proof.Machine.execOperationComplete p op s
  | .operandPopResume p op => Sys2Proof.Machine.execOperandPopResume p op s
  | .creditWaitResume p op => Sys2Proof.Machine.execCreditWaitResume p op s
  | .firingBegin p => Sys2Proof.Machine.execFiringBegin p s
  | .firingComplete p => Sys2Proof.Machine.execFiringComplete p s
  | .sheetSwitch p => Sys2Proof.Machine.execSheetSwitch p s
  | .sheetSwitchDone p => Sys2Proof.Machine.execSheetSwitchDone p s
  | .outerIterationBegin p => Sys2Proof.Machine.execOuterIterationBegin p s
  | .outerIterationComplete p => Sys2Proof.Machine.execOuterIterationComplete p s
  | .steeringSwitch p rule => Sys2Proof.Machine.execSteeringSwitch p rule s
  | .steeringMerge p rule => Sys2Proof.Machine.execSteeringMerge p rule s
  | .generationPeriodFlush p => Sys2Proof.Machine.execGenerationPeriodFlush p s
  | .queueMessageArrival a => Sys2Proof.Machine.execQueueMessageArrival a s
  | .ringMessageStart a => Sys2Proof.Machine.execRingMessageStart a s
  | .ringMessageLand p ring => Sys2Proof.Machine.execRingMessageLand p ring s
  | .creditGrantArrival a => Sys2Proof.Machine.execCreditGrantArrival a s
  | .closeNoticeArrival a => Sys2Proof.Machine.execCloseNoticeArrival a s
  | .dropNoticeArrival a => Sys2Proof.Machine.execDropNoticeArrival a s
  | .imageWriteArrival a => Sys2Proof.Machine.execImageWriteArrival a s
  | .chartroomPlotWrite p off data signal => Sys2Proof.Machine.execChartroomPlotWrite p off data signal s
  | .controllerAskArrival a => Sys2Proof.Machine.execControllerAskArrival a s
  | .ticketGrantArrival a => Sys2Proof.Machine.execTicketGrantArrival a s
  | .edgeRequestArrival a => Sys2Proof.Machine.execEdgeRequestArrival a s
  | .edgeServiceComplete stack => Sys2Proof.Machine.execEdgeServiceComplete stack s
  | .edgeCompletionArrival a => Sys2Proof.Machine.execEdgeCompletionArrival a s
  | .ticketGiveBack p stack => Sys2Proof.Machine.execTicketGiveBack p stack s
  | .giveBackArrival a => Sys2Proof.Machine.execGiveBackArrival a s
  | .shareBucketRefill => Sys2Proof.Machine.execShareBucketRefill s
  | .stackTemperatureRead stack celsius => Sys2Proof.Machine.execStackTemperatureRead stack celsius s
  | .calibrationWindow stack => Sys2Proof.Machine.execCalibrationWindow stack s
  | .padScrub phys line upsets => Sys2Proof.Machine.execPadScrub phys line upsets s
  | .edgeScrub stack addr upsets => Sys2Proof.Machine.execEdgeScrub stack addr upsets s
  | .progressMark a => Sys2Proof.Machine.execProgressMark a s
  | .stallExpiry a => Sys2Proof.Machine.execStallExpiry a s
  | .parcelDeadlock parcel => Sys2Proof.Machine.execParcelDeadlock parcel s
  | .quiescenceReport a => Sys2Proof.Machine.execQuiescenceReport a s
  | .scanComplete parcel => Sys2Proof.Machine.execScanComplete parcel s
  | .drainTimeout p => Sys2Proof.Machine.execDrainTimeout p s
  | .timeoutSettle parcel => Sys2Proof.Machine.execTimeoutSettle parcel s
  | .endReport parcel => Sys2Proof.Machine.execEndReport parcel s
  | .imagesDone parcel => Sys2Proof.Machine.execImagesDone parcel s
  | .swapTake parcel => Sys2Proof.Machine.execSwapTake parcel s
  | .tallyArrival n parityOk => Sys2Proof.Machine.execTallyArrival n parityOk s
  | .tallyReturnArrival a => Sys2Proof.Machine.execTallyReturnArrival a s
  | .leafReturn a => Sys2Proof.Machine.execLeafReturn a s
  | .lossNoticeArrival tree => Sys2Proof.Machine.execLossNoticeArrival tree s
  | .ownerRouteTimeout tree => Sys2Proof.Machine.execOwnerRouteTimeout tree s
  | .treeLossBroadcast field => Sys2Proof.Machine.execTreeLossBroadcast field s
  | .faultDrainOrder parcel => Sys2Proof.Machine.execFaultDrainOrder parcel s
  | .rerun a => Sys2Proof.Machine.execRerun a s
  | .rerunVerdict phys a => Sys2Proof.Machine.execRerunVerdict phys a s
  | .patrolTest a => Sys2Proof.Machine.execPatrolTest a s
  | .queuedTestRun a => Sys2Proof.Machine.execQueuedTestRun a s
  | .fieldSupplyFault field => Sys2Proof.Machine.execFieldSupplyFault field s
  | .routeRewrite => Sys2Proof.Machine.execRouteRewrite s
  | .attachmentSwitch what => Sys2Proof.Machine.execAttachmentSwitch what s
  | .processorWatchdogExpiry proc => Sys2Proof.Machine.execProcessorWatchdogExpiry proc s
  | .hardwareRestart proc => Sys2Proof.Machine.execHardwareRestart proc s
  | .processorRestartComplete proc => Sys2Proof.Machine.execProcessorRestartComplete proc s
  | .transactionResume => Sys2Proof.Machine.execTransactionResume s
  | .isobarSlot fieldWatts otherWatts mainMv standbyMv => Sys2Proof.Machine.execIsobarSlot fieldWatts otherWatts mainMv standbyMv s
  | .hintReport field => Sys2Proof.Machine.execHintReport field s
  | .junctionRead hottest => Sys2Proof.Machine.execJunctionRead hottest s
  | .capSample watts => Sys2Proof.Machine.execCapSample watts s
  | .capStep => Sys2Proof.Machine.execCapStep s
  | .squall cause => Sys2Proof.Machine.execSquall cause s
  | .squallEnd => Sys2Proof.Machine.execSquallEnd s
  | .thermalTrip => Sys2Proof.Machine.execThermalTrip s
  | .coolantChange inletC outletC flowTenths => Sys2Proof.Machine.execCoolantChange inletC outletC flowTenths s
  | .coolantLost => Sys2Proof.Machine.execCoolantLost s
  | .droopStretch field => Sys2Proof.Machine.execDroopStretch field s
  | .ageingMeasure needMv => Sys2Proof.Machine.execAgeingMeasure needMv s
  | .nvBlock standby => Sys2Proof.Machine.execNvBlock standby s
  | .nvUnblock => Sys2Proof.Machine.execNvUnblock s
  | .mainInputLoss => Sys2Proof.Machine.execMainInputLoss s
  | .mainOverVoltage => Sys2Proof.Machine.execMainOverVoltage s
  | .standbyInputLoss => Sys2Proof.Machine.execStandbyInputLoss s
  | .idleEntry => Sys2Proof.Machine.execIdleEntry s
  | .idleExit => Sys2Proof.Machine.execIdleExit s
  | .powerOnReset => Sys2Proof.Machine.execPowerOnReset s
  | .resetPulse widthUs => Sys2Proof.Machine.execResetPulse widthUs s
  | .resetHold widthMs => Sys2Proof.Machine.execResetHold widthMs s
  | .releaseStep => Sys2Proof.Machine.execReleaseStep s
  | .domainSupplyTimeout field => Sys2Proof.Machine.execDomainSupplyTimeout field s
  | .imageVerify a b => Sys2Proof.Machine.execImageVerify a b s
  | .chartroomStart copy0Ok copy1Ok pcieGen pcieWidth => Sys2Proof.Machine.execChartroomStart copy0Ok copy1Ok pcieGen pcieWidth s
  | .referenceSelection aGood bGood mainValid pllLocked supplyOk => Sys2Proof.Machine.execReferenceSelection aGood bGood mainValid pllLocked supplyOk s
  | .stitchWireTest results => Sys2Proof.Machine.execStitchWireTest results s
  | .triangulation results => Sys2Proof.Machine.execTriangulation results s
  | .gazetteerBuild => Sys2Proof.Machine.execGazetteerBuild s
  | .edgeMemoryTraining results => Sys2Proof.Machine.execEdgeMemoryTraining results s
  | .wengaLinkTraining => Sys2Proof.Machine.execWengaLinkTraining s
  | .ready => Sys2Proof.Machine.execReady s
  | .supervisionWindow aVsBPpm aOk bOk => Sys2Proof.Machine.execSupervisionWindow aVsBPpm aOk bOk s
  | .clkLost => Sys2Proof.Machine.execClkLost s
  | .refclkBFail => Sys2Proof.Machine.execRefclkBFail s
  | .signalDetect port lanes => Sys2Proof.Machine.execSignalDetect port lanes s
  | .equaliseDone port ok => Sys2Proof.Machine.execEqualiseDone port ok s
  | .laneMapDone port found => Sys2Proof.Machine.execLaneMapDone port found s
  | .identifyExchange port peer => Sys2Proof.Machine.execIdentifyExchange port peer s
  | .retrainEntry port why => Sys2Proof.Machine.execRetrainEntry port why s
  | .retrainDone port found => Sys2Proof.Machine.execRetrainDone port found s
  | .portDown port => Sys2Proof.Machine.execPortDown port s
  | .downTimer port => Sys2Proof.Machine.execDownTimer port s
  | .flitReceive port flit => Sys2Proof.Machine.execFlitReceive port flit s
  | .nakReceive port ack => Sys2Proof.Machine.execNakReceive port ack s
  | .flitKeepalive port => Sys2Proof.Machine.execFlitKeepalive port s
  | .wengaPacketArrival source => Sys2Proof.Machine.execWengaPacketArrival source s
  | .roleHoldExpiry role => Sys2Proof.Machine.execRoleHoldExpiry role s
  | .streamData port => Sys2Proof.Machine.execStreamData port s
  | .streamCredit port => Sys2Proof.Machine.execStreamCredit port s
  | .imageData port => Sys2Proof.Machine.execImageData port s
  | .linkCredit port => Sys2Proof.Machine.execLinkCredit port s
  | .stitchModeEntry field => Sys2Proof.Machine.execStitchModeEntry field s
  | .stitchModeExit field => Sys2Proof.Machine.execStitchModeExit field s
  | .segmentSupplyFault segment => Sys2Proof.Machine.execSegmentSupplyFault segment s
  | .standbyBranchFault branch => Sys2Proof.Machine.execStandbyBranchFault branch s

end Sys2Proof.Machine
end

