-- ==== Sys2Proof/Machine/Tick.lean ====
section
/-! DEFINITION. What the passing of time does by itself: one cycle of the 100 MHz reference, which a step on an empty queue takes (log
entry 3). Counts of cycles advance; an event that is due at a count is a command of its own. -/

namespace Sys2Proof.Machine

/-- Arithmetic cycles of a field in one reference cycle (14 R466). -/
def Field.rate (v : Field) : Nat := pointFreq v.point

/-- A field that is supplied and released. -/
def Field.on (v : Field) : Bool := v.pwrEn && v.pwrOk && v.rstN

/-- A field: its cycle count (12 R413), the lockout of its droop detectors (14 R479), which ends within a reference cycle at 0.8 GHz or more. -/
def Field.tick (v : Field) : Field :=
  if !v.on then v else { v with cycles := (v.cycles + v.rate) % 2 ^ 64, lockout := v.lockout - v.rate }

def Emc.tick (e : Emc) : Emc := { e with window := e.window - 1 }

/-- The channels whose credit an issued operation or a steering rule waits on (02 R75, 06 R220). A channel that has closed is waited on no more
(06 R237). -/
def Plot.creditWaits (p : Plot) : List Nat :=
  let h := sheetHeader p.seq.cache p.seq.cur
  let rule (s : Steer) : List Nat := if p.steerLive then (p.steerState s).2.toList else []
  ((if p.opsLive then p.seq.ops.filterMap fun f => match f.wait with | .credit c => some c | _ => none else [])
    ++ rule h.steer0 ++ rule h.steer1).filter fun c => !(p.chan c).closed

/-- An edge move waits for a ticket, or at issue for a tracker (09 R325). -/
def Plot.edgeWaits (p : Plot) : Bool :=
  (p.opsLive && p.seq.ops.any fun f => match f.wait with | .ticket _ => true | _ => false)
    || (match p.current with
        | some f =>
          let w := sheetOp p.seq.cache f.sheet f.slot
          p.live && !p.seq.halted && opClass w == 4 && mpEdge (opParam w) && !opIllegal w && decide (8 ≤ p.edge.trackers.length)
        | none => false)

/-- The stalls of one reference cycle, n cycles of the plot's field (02 R75, R102, 06 R220, R241, 09 R325): waits on empty queues and rings, on
credit, trackers and tickets, each channel waited on, and, while an operation in flight makes requests of memory, `bank` cycles of waiting for a bank (02
R47; log entry 70). -/
def Plot.stalls (p : Plot) (n bank : Nat) : Plot :=
  let outs := p.creditWaits
  let q := if p.opsLive && p.seq.ops.any (fun f => f.wait == .pop) then p.bump cStallIn n else p
  let q := if !outs.isEmpty || p.edgeWaits then q.bump cStallOut n else q
  let q := if p.opsLive && p.seq.ops.any (fun f => opMem f.word) then q.bump cStallMem bank else q
  { q with chans := (q.chans.zipIdx).map fun ci => if outs.contains ci.2 then ci.1.bump 1 n else ci.1 }

/-- A plot: its stalls; the watchdog, which counts in every plot of a running parcel (05 R199); the drain count while it is DRAINING (05 R207). -/
def Plot.tick (p : Plot) (rate bank : Nat) (armed : Bool) : Plot :=
  let p := p.stalls rate bank
  if armed then { p with watch := { p.watch with count := p.watch.count + rate } }
  else if p.st == .draining then { p with watch := { p.watch with drain := p.watch.drain + rate } }
  else p

/-- One reference cycle. Before step 1 nothing counts; a stage of the start-up that has overrun its bound fails. -/
def State.tick (s : State) : State :=
  if s.clk.step = 0 ∨ s.pwr.state = .off then s
  else
    let s := s.stageTimeout
    let armed := (s.parcels.filter s.watchArmed).map fun q => q.num
    let count := (s.clk.count + 1) % 2 ^ 64
    { s with
      fields := s.fields.map Field.tick
      emcs := s.emcs.map Emc.tick
      plots := s.plots.map fun pp =>
        let v := s.field (fieldOfPhys pp.1)
        let p := s.plot pp.1
        (pp.1, if v.on && !p.fence then p.tick v.rate (Config.bankWait s.freeCtr pp.1) (armed.contains p.parcel) else pp.2)
      freeCtr := s.freeCtr + 1
      clk := { s.clk with count := count, netHalf := s.clk.netHalf + (if 2 ≤ s.clk.step then pointFreq s.pwr.netPoint else 0) } }

end Sys2Proof.Machine
end

