-- ==== Sys2Proof/Laws/Cells.lean ====
section
/-! SUPPORT. Laws of the sparse lists: a read after a write to the same key gives what was written, a write leaves every other key, and
every write keeps the canonical form. -/

namespace Sys2Proof.Machine

variable {α : Type}

@[simp] theorem listGet_nil (k : Nat) : listGet ([] : List (Nat × α)) k = none := rfl

theorem listGet_listPut (l : List (Nat × α)) (k j : Nat) (x : α) :
    listGet (listPut k x l) j = if j = k then some x else listGet l j := by
  induction l with
  | nil => grind [listPut, listGet]
  | cons h r ih => obtain ⟨a, v⟩ := h; grind [listPut, listGet]

theorem listGet_listDel (l : List (Nat × α)) (k j : Nat) :
    listGet (listDel k l) j = if j = k then none else listGet l j := by
  induction l with
  | nil => grind [listDel, listGet]
  | cons h r ih => obtain ⟨a, v⟩ := h; grind [listDel, listGet]

/-- A read after a write. -/
theorem cellGet_cellSet [DecidableEq α] (d : α) (l : List (Nat × α)) (k j : Nat) (x : α) :
    cellGet d (cellSet d k x l) j = if j = k then x else cellGet d l j := by
  unfold cellGet cellSet
  split
  · rw [listGet_listDel]; split <;> simp_all
  · rw [listGet_listPut]; split <;> simp_all

@[simp] theorem cellGet_cellSet_same [DecidableEq α] (d : α) (l : List (Nat × α)) (k : Nat) (x : α) :
    cellGet d (cellSet d k x l) k = x := by simp [cellGet_cellSet]

theorem cellGet_cellSet_ne [DecidableEq α] (d : α) (l : List (Nat × α)) {k j : Nat} (x : α) (h : j ≠ k) :
    cellGet d (cellSet d k x l) j = cellGet d l j := by simp [cellGet_cellSet, h]

/-! ## The canonical form -/

/-- The canonical form, said by its two parts. -/
theorem cellsWf_iff [DecidableEq α] (d : α) (l : List (Nat × α)) :
    cellsWf d l = true ↔ l.Pairwise (fun p q => p.1 < q.1) ∧ ∀ p ∈ l, p.2 ≠ d := by
  induction l with
  | nil => simp [cellsWf]
  | cons h r ih =>
    obtain ⟨a, v⟩ := h
    cases r with
    | nil => simp [cellsWf]
    | cons h' r' =>
      obtain ⟨b, w⟩ := h'
      simp only [cellsWf, Bool.and_eq_true, decide_eq_true_eq, ih]
      constructor
      · rintro ⟨⟨hv, hab⟩, hp, hd⟩
        refine ⟨List.pairwise_cons.2 ⟨?_, hp⟩, by simpa [hv] using hd⟩
        intro q hq
        rcases List.mem_cons.1 hq with rfl | hq
        · exact hab
        · exact lt_trans hab ((List.pairwise_cons.1 hp).1 q hq)
      · rintro ⟨hp, hd⟩
        have hp' := List.pairwise_cons.1 hp
        exact ⟨⟨hd _ List.mem_cons_self, hp'.1 _ List.mem_cons_self⟩, hp'.2, fun p hp => hd p (List.mem_cons_of_mem _ hp)⟩

theorem mem_listPut (l : List (Nat × α)) (k : Nat) (x : α) (p : Nat × α) (h : p ∈ listPut k x l) : p = (k, x) ∨ p ∈ l := by
  induction l with
  | nil => simpa [listPut] using h
  | cons e r ih =>
    obtain ⟨a, v⟩ := e
    simp only [listPut] at h
    split at h
    · rcases List.mem_cons.1 h with h | h
      · exact .inl h
      · exact .inr (List.mem_cons_of_mem _ h)
    · split at h
      · rcases List.mem_cons.1 h with h | h
        · exact .inl h
        · exact .inr h
      · rcases List.mem_cons.1 h with h | h
        · exact .inr (h ▸ List.mem_cons_self)
        · rcases ih h with h | h
          · exact .inl h
          · exact .inr (List.mem_cons_of_mem _ h)

theorem mem_listDel (l : List (Nat × α)) (k : Nat) (p : Nat × α) (h : p ∈ listDel k l) : p ∈ l := by
  induction l with
  | nil => simp [listDel] at h
  | cons e r ih =>
    obtain ⟨a, v⟩ := e
    simp only [listDel] at h
    split at h
    · exact List.mem_cons_of_mem _ (ih h)
    · rcases List.mem_cons.1 h with h | h
      · exact h ▸ List.mem_cons_self
      · exact List.mem_cons_of_mem _ (ih h)

theorem listPut_sorted (l : List (Nat × α)) (k : Nat) (x : α) (h : l.Pairwise (fun p q => p.1 < q.1)) :
    (listPut k x l).Pairwise (fun p q => p.1 < q.1) := by
  induction l with
  | nil => simp [listPut]
  | cons e r ih =>
    obtain ⟨a, v⟩ := e
    have h' := List.pairwise_cons.1 h
    simp only [listPut]
    split
    · subst a; exact List.pairwise_cons.2 ⟨h'.1, h'.2⟩
    · split
      · refine List.pairwise_cons.2 ⟨?_, h⟩
        intro q hq
        rcases List.mem_cons.1 hq with rfl | hq
        · assumption
        · exact lt_trans ‹k < a› (h'.1 q hq)
      · refine List.pairwise_cons.2 ⟨?_, ih h'.2⟩
        intro q hq
        rcases mem_listPut _ _ _ _ hq with rfl | hq
        · show a < k; omega
        · exact h'.1 q hq

theorem listDel_sorted (l : List (Nat × α)) (k : Nat) (h : l.Pairwise (fun p q => p.1 < q.1)) :
    (listDel k l).Pairwise (fun p q => p.1 < q.1) := by
  induction l with
  | nil => simp [listDel]
  | cons e r ih =>
    obtain ⟨a, v⟩ := e
    have h' := List.pairwise_cons.1 h
    simp only [listDel]
    split
    · exact ih h'.2
    · exact List.pairwise_cons.2 ⟨fun q hq => h'.1 q (mem_listDel _ _ _ hq), ih h'.2⟩

/-- A write keeps the canonical form. -/
theorem cellsWf_cellSet [DecidableEq α] (d : α) (l : List (Nat × α)) (k : Nat) (x : α) (h : cellsWf d l = true) :
    cellsWf d (cellSet d k x l) = true := by
  rw [cellsWf_iff] at h ⊢
  unfold cellSet
  split
  · exact ⟨listDel_sorted _ _ h.1, fun p hp => h.2 p (mem_listDel _ _ _ hp)⟩
  · refine ⟨listPut_sorted _ _ _ h.1, fun p hp => ?_⟩
    rcases mem_listPut _ _ _ _ hp with rfl | hp
    · assumption
    · exact h.2 p hp

theorem cellsWf_filter [DecidableEq α] (d : α) (l : List (Nat × α)) (f : Nat × α → Bool) (h : cellsWf d l = true) :
    cellsWf d (l.filter f) = true := by
  rw [cellsWf_iff] at h ⊢
  exact ⟨h.1.filter f, fun p hp => h.2 p (List.mem_filter.1 hp).1⟩

/-! ## Runs of bytes -/

@[simp] theorem cellsWrite_nil (l : List Host.Cell) (a : Nat) : cellsWrite l a [] = l := rfl

theorem cellsWrite_cons (l : List Host.Cell) (a : Nat) (b : Byte) (d : List Byte) :
    cellsWrite l a (b :: d) = cellsWrite (cellSet 0 a b l) (a + 1) d := rfl

/-- A byte after a run of bytes is written. -/
theorem cellGet_cellsWrite (l : List Host.Cell) (a : Nat) (d : List Byte) (j : Nat) :
    cellGet 0 (cellsWrite l a d) j = if a ≤ j ∧ j < a + d.length then (d[j - a]?).getD 0 else cellGet 0 l j := by
  induction d generalizing l a with
  | nil => simp
  | cons b r ih =>
    rw [cellsWrite_cons, ih, cellGet_cellSet]
    simp only [List.length_cons]
    by_cases h1 : a + 1 ≤ j ∧ j < a + 1 + r.length
    · have : j - a = (j - (a + 1)) + 1 := by omega
      rw [if_pos h1, if_pos (by omega), this]; simp
    · rw [if_neg h1]
      by_cases h2 : j = a
      · subst h2; simp
      · rw [if_neg h2, if_neg (by omega)]

/-- What was written reads back. -/
theorem cellsRead_cellsWrite (l : List Host.Cell) (a : Nat) (d : List Byte) : cellsRead (cellsWrite l a d) a d.length = d := by
  unfold cellsRead
  apply List.ext_getElem
  · simp
  · intro i h1 h2
    simp only [List.getElem_map, List.getElem_range, cellGet_cellsWrite]
    rw [if_pos (by omega)]; simp [h2]

theorem cellsWf_cellsWrite (l : List Host.Cell) (a : Nat) (d : List Byte) (h : cellsWf 0 l = true) : cellsWf 0 (cellsWrite l a d) = true := by
  induction d generalizing l a with
  | nil => exact h
  | cons b r ih => rw [cellsWrite_cons]; exact ih _ _ (cellsWf_cellSet _ _ _ _ h)

/-! ## Protected memory keeps the canonical form -/

theorem Mem.wf_iff (m : Mem) : m.wf = true ↔ cellsWf (0 : Byte) m.bytes = true ∧ cellsWf (0 : Byte) m.syn = true := by simp [Mem.wf]

theorem Mem.wf_put (m : Mem) (w : Nat) (d : W64) (s : Byte) (h : m.wf = true) : (m.put w d s).wf = true := by
  rw [Mem.wf_iff] at h ⊢
  refine ⟨?_, cellsWf_cellSet _ _ _ _ h.2⟩
  have go : ∀ (is : List Nat) (l : List Host.Cell), cellsWf 0 l = true →
      cellsWf 0 (is.foldl (fun l i => cellSet 0 (8 * w + i) (BitVec.ofNat 8 (d.toNat >>> (8 * i))) l) l) = true := by
    intro is
    induction is with
    | nil => intro l hl; exact hl
    | cons i r ih => intro l hl; exact ih _ (cellsWf_cellSet _ _ _ _ hl)
  exact go _ _ h.1

theorem Mem.wf_readWord (m : Mem) (w : Nat) (h : m.wf = true) : (m.readWord w).mem.wf = true := by
  unfold Mem.readWord
  split
  · exact h
  · exact h
  · exact Mem.wf_put _ _ _ _ h
  · exact Mem.wf_put _ _ _ _ h
  · exact Mem.wf_put _ _ _ _ h

theorem Mem.wf_readWords (m : Mem) (w k : Nat) (h : m.wf = true) : (m.readWords w k).mem.wf = true := by
  induction k generalizing m w with
  | zero => exact h
  | succ k ih => exact ih _ _ (Mem.wf_readWord _ _ h)

theorem Mem.wf_read (m : Mem) (a n : Nat) (h : m.wf = true) : (m.read a n).mem.wf = true := by
  unfold Mem.read; split
  · exact h
  · exact Mem.wf_readWords _ _ _ h

theorem Mem.wf_writeWord (m : Mem) (w off : Nat) (d : Data) (h : m.wf = true) : (m.writeWord w off d).mem.wf = true := by
  unfold Mem.writeWord
  dsimp only
  split
  · exact Mem.wf_put _ _ _ _ h
  · exact Mem.wf_put _ _ _ _ (Mem.wf_readWord _ _ h)

theorem Mem.wf_writeGo (m : Mem) (a : Nat) (d : Data) (n : Nat) (h : m.wf = true) : (m.writeGo a d n).mem.wf = true := by
  induction n generalizing m a d with
  | zero => exact h
  | succ n ih =>
    unfold Mem.writeGo
    split
    · exact h
    · exact ih _ _ _ (Mem.wf_writeWord _ _ _ _ h)

theorem Mem.wf_write (m : Mem) (a : Nat) (d : Data) (h : m.wf = true) : (m.write a d).mem.wf = true := Mem.wf_writeGo _ _ _ _ h

theorem Mem.wf_upset (m : Mem) (w : Nat) (d : W64) (c : Byte) (h : m.wf = true) : (m.upset w d c).wf = true := Mem.wf_put _ _ _ _ h

theorem Mem.wf_clear (m : Mem) (a n : Nat) (h : m.wf = true) : (m.clear a n).wf = true := by
  rw [Mem.wf_iff] at h ⊢
  exact ⟨cellsWf_filter _ _ _ h.1, cellsWf_filter _ _ _ h.2⟩

theorem Mem.wf_reset : Mem.reset.wf = true := rfl

end Sys2Proof.Machine
end

