-- ==== Sys2Proof/Laws/State.lean ====
section
/-! SUPPORT. Each update of State leaves every other field; what each update leaves in its own. -/

namespace Sys2Proof.Machine

variable (s : State)

@[simp] theorem State.setField_plots (f : Nat) (v : Field) : (s.setField f v).plots = s.plots := rfl
@[simp] theorem State.setField_emcs (f : Nat) (v : Field) : (s.setField f v).emcs = s.emcs := rfl
@[simp] theorem State.setField_ports (f : Nat) (v : Field) : (s.setField f v).ports = s.ports := rfl
@[simp] theorem State.setField_edge (f : Nat) (v : Field) : (s.setField f v).edge = s.edge := rfl
@[simp] theorem State.setField_stratus (f : Nat) (v : Field) : (s.setField f v).stratus = s.stratus := rfl
@[simp] theorem State.setField_nimbus (f : Nat) (v : Field) : (s.setField f v).nimbus = s.nimbus := rfl
@[simp] theorem State.setField_notices (f : Nat) (v : Field) : (s.setField f v).notices = s.notices := rfl
@[simp] theorem State.setField_swHeld (f : Nat) (v : Field) : (s.setField f v).swHeld = s.swHeld := rfl
@[simp] theorem State.setField_parcels (f : Nat) (v : Field) : (s.setField f v).parcels = s.parcels := rfl
@[simp] theorem State.setField_held (f : Nat) (v : Field) : (s.setField f v).held = s.held := rfl
@[simp] theorem State.setField_roleHolds (f : Nat) (v : Field) : (s.setField f v).roleHolds = s.roleHolds := rfl
@[simp] theorem State.setField_hif (f : Nat) (v : Field) : (s.setField f v).hif = s.hif := rfl
@[simp] theorem State.setField_procs (f : Nat) (v : Field) : (s.setField f v).procs = s.procs := rfl
@[simp] theorem State.setField_nv (f : Nat) (v : Field) : (s.setField f v).nv = s.nv := rfl
@[simp] theorem State.setField_svc (f : Nat) (v : Field) : (s.setField f v).svc = s.svc := rfl
@[simp] theorem State.setField_pwr (f : Nat) (v : Field) : (s.setField f v).pwr = s.pwr := rfl
@[simp] theorem State.setField_clk (f : Nat) (v : Field) : (s.setField f v).clk = s.clk := rfl
@[simp] theorem State.setField_dbg (f : Nat) (v : Field) : (s.setField f v).dbg = s.dbg := rfl
@[simp] theorem State.setField_regs (f : Nat) (v : Field) : (s.setField f v).regs = s.regs := rfl
@[simp] theorem State.setField_out (f : Nat) (v : Field) : (s.setField f v).out = s.out := rfl
@[simp] theorem State.setField_nack (f : Nat) (v : Field) : (s.setField f v).nack = s.nack := rfl
@[simp] theorem State.setField_freeCtr (f : Nat) (v : Field) : (s.setField f v).freeCtr = s.freeCtr := rfl
@[simp] theorem State.setField_pending (f : Nat) (v : Field) : (s.setField f v).pending = s.pending := rfl

@[simp] theorem State.setEmc_plots (c : Nat) (v : Emc) : (s.setEmc c v).plots = s.plots := rfl
@[simp] theorem State.setEmc_fields (c : Nat) (v : Emc) : (s.setEmc c v).fields = s.fields := rfl
@[simp] theorem State.setEmc_ports (c : Nat) (v : Emc) : (s.setEmc c v).ports = s.ports := rfl
@[simp] theorem State.setEmc_edge (c : Nat) (v : Emc) : (s.setEmc c v).edge = s.edge := rfl
@[simp] theorem State.setEmc_stratus (c : Nat) (v : Emc) : (s.setEmc c v).stratus = s.stratus := rfl
@[simp] theorem State.setEmc_nimbus (c : Nat) (v : Emc) : (s.setEmc c v).nimbus = s.nimbus := rfl
@[simp] theorem State.setEmc_notices (c : Nat) (v : Emc) : (s.setEmc c v).notices = s.notices := rfl
@[simp] theorem State.setEmc_swHeld (c : Nat) (v : Emc) : (s.setEmc c v).swHeld = s.swHeld := rfl
@[simp] theorem State.setEmc_parcels (c : Nat) (v : Emc) : (s.setEmc c v).parcels = s.parcels := rfl
@[simp] theorem State.setEmc_held (c : Nat) (v : Emc) : (s.setEmc c v).held = s.held := rfl
@[simp] theorem State.setEmc_roleHolds (c : Nat) (v : Emc) : (s.setEmc c v).roleHolds = s.roleHolds := rfl
@[simp] theorem State.setEmc_hif (c : Nat) (v : Emc) : (s.setEmc c v).hif = s.hif := rfl
@[simp] theorem State.setEmc_procs (c : Nat) (v : Emc) : (s.setEmc c v).procs = s.procs := rfl
@[simp] theorem State.setEmc_nv (c : Nat) (v : Emc) : (s.setEmc c v).nv = s.nv := rfl
@[simp] theorem State.setEmc_svc (c : Nat) (v : Emc) : (s.setEmc c v).svc = s.svc := rfl
@[simp] theorem State.setEmc_pwr (c : Nat) (v : Emc) : (s.setEmc c v).pwr = s.pwr := rfl
@[simp] theorem State.setEmc_clk (c : Nat) (v : Emc) : (s.setEmc c v).clk = s.clk := rfl
@[simp] theorem State.setEmc_dbg (c : Nat) (v : Emc) : (s.setEmc c v).dbg = s.dbg := rfl
@[simp] theorem State.setEmc_regs (c : Nat) (v : Emc) : (s.setEmc c v).regs = s.regs := rfl
@[simp] theorem State.setEmc_out (c : Nat) (v : Emc) : (s.setEmc c v).out = s.out := rfl
@[simp] theorem State.setEmc_nack (c : Nat) (v : Emc) : (s.setEmc c v).nack = s.nack := rfl
@[simp] theorem State.setEmc_freeCtr (c : Nat) (v : Emc) : (s.setEmc c v).freeCtr = s.freeCtr := rfl
@[simp] theorem State.setEmc_pending (c : Nat) (v : Emc) : (s.setEmc c v).pending = s.pending := rfl

@[simp] theorem State.setPort_plots (p : Nat) (v : Port) : (s.setPort p v).plots = s.plots := rfl
@[simp] theorem State.setPort_fields (p : Nat) (v : Port) : (s.setPort p v).fields = s.fields := rfl
@[simp] theorem State.setPort_emcs (p : Nat) (v : Port) : (s.setPort p v).emcs = s.emcs := rfl
@[simp] theorem State.setPort_edge (p : Nat) (v : Port) : (s.setPort p v).edge = s.edge := rfl
@[simp] theorem State.setPort_stratus (p : Nat) (v : Port) : (s.setPort p v).stratus = s.stratus := rfl
@[simp] theorem State.setPort_nimbus (p : Nat) (v : Port) : (s.setPort p v).nimbus = s.nimbus := rfl
@[simp] theorem State.setPort_notices (p : Nat) (v : Port) : (s.setPort p v).notices = s.notices := rfl
@[simp] theorem State.setPort_swHeld (p : Nat) (v : Port) : (s.setPort p v).swHeld = s.swHeld := rfl
@[simp] theorem State.setPort_parcels (p : Nat) (v : Port) : (s.setPort p v).parcels = s.parcels := rfl
@[simp] theorem State.setPort_held (p : Nat) (v : Port) : (s.setPort p v).held = s.held := rfl
@[simp] theorem State.setPort_roleHolds (p : Nat) (v : Port) : (s.setPort p v).roleHolds = s.roleHolds := rfl
@[simp] theorem State.setPort_hif (p : Nat) (v : Port) : (s.setPort p v).hif = s.hif := rfl
@[simp] theorem State.setPort_procs (p : Nat) (v : Port) : (s.setPort p v).procs = s.procs := rfl
@[simp] theorem State.setPort_nv (p : Nat) (v : Port) : (s.setPort p v).nv = s.nv := rfl
@[simp] theorem State.setPort_svc (p : Nat) (v : Port) : (s.setPort p v).svc = s.svc := rfl
@[simp] theorem State.setPort_pwr (p : Nat) (v : Port) : (s.setPort p v).pwr = s.pwr := rfl
@[simp] theorem State.setPort_clk (p : Nat) (v : Port) : (s.setPort p v).clk = s.clk := rfl
@[simp] theorem State.setPort_dbg (p : Nat) (v : Port) : (s.setPort p v).dbg = s.dbg := rfl
@[simp] theorem State.setPort_regs (p : Nat) (v : Port) : (s.setPort p v).regs = s.regs := rfl
@[simp] theorem State.setPort_out (p : Nat) (v : Port) : (s.setPort p v).out = s.out := rfl
@[simp] theorem State.setPort_nack (p : Nat) (v : Port) : (s.setPort p v).nack = s.nack := rfl
@[simp] theorem State.setPort_freeCtr (p : Nat) (v : Port) : (s.setPort p v).freeCtr = s.freeCtr := rfl
@[simp] theorem State.setPort_pending (p : Nat) (v : Port) : (s.setPort p v).pending = s.pending := rfl

@[simp] theorem State.setPlot_fields (ph : Nat) (v : Plot) : (s.setPlot ph v).fields = s.fields := rfl
@[simp] theorem State.setPlot_emcs (ph : Nat) (v : Plot) : (s.setPlot ph v).emcs = s.emcs := rfl
@[simp] theorem State.setPlot_ports (ph : Nat) (v : Plot) : (s.setPlot ph v).ports = s.ports := rfl
@[simp] theorem State.setPlot_edge (ph : Nat) (v : Plot) : (s.setPlot ph v).edge = s.edge := rfl
@[simp] theorem State.setPlot_stratus (ph : Nat) (v : Plot) : (s.setPlot ph v).stratus = s.stratus := rfl
@[simp] theorem State.setPlot_nimbus (ph : Nat) (v : Plot) : (s.setPlot ph v).nimbus = s.nimbus := rfl
@[simp] theorem State.setPlot_notices (ph : Nat) (v : Plot) : (s.setPlot ph v).notices = s.notices := rfl
@[simp] theorem State.setPlot_swHeld (ph : Nat) (v : Plot) : (s.setPlot ph v).swHeld = s.swHeld := rfl
@[simp] theorem State.setPlot_parcels (ph : Nat) (v : Plot) : (s.setPlot ph v).parcels = s.parcels := rfl
@[simp] theorem State.setPlot_held (ph : Nat) (v : Plot) : (s.setPlot ph v).held = s.held := rfl
@[simp] theorem State.setPlot_roleHolds (ph : Nat) (v : Plot) : (s.setPlot ph v).roleHolds = s.roleHolds := rfl
@[simp] theorem State.setPlot_hif (ph : Nat) (v : Plot) : (s.setPlot ph v).hif = s.hif := rfl
@[simp] theorem State.setPlot_procs (ph : Nat) (v : Plot) : (s.setPlot ph v).procs = s.procs := rfl
@[simp] theorem State.setPlot_nv (ph : Nat) (v : Plot) : (s.setPlot ph v).nv = s.nv := rfl
@[simp] theorem State.setPlot_svc (ph : Nat) (v : Plot) : (s.setPlot ph v).svc = s.svc := rfl
@[simp] theorem State.setPlot_pwr (ph : Nat) (v : Plot) : (s.setPlot ph v).pwr = s.pwr := rfl
@[simp] theorem State.setPlot_clk (ph : Nat) (v : Plot) : (s.setPlot ph v).clk = s.clk := rfl
@[simp] theorem State.setPlot_dbg (ph : Nat) (v : Plot) : (s.setPlot ph v).dbg = s.dbg := rfl
@[simp] theorem State.setPlot_regs (ph : Nat) (v : Plot) : (s.setPlot ph v).regs = s.regs := rfl
@[simp] theorem State.setPlot_out (ph : Nat) (v : Plot) : (s.setPlot ph v).out = s.out := rfl
@[simp] theorem State.setPlot_nack (ph : Nat) (v : Plot) : (s.setPlot ph v).nack = s.nack := rfl
@[simp] theorem State.setPlot_freeCtr (ph : Nat) (v : Plot) : (s.setPlot ph v).freeCtr = s.freeCtr := rfl
@[simp] theorem State.setPlot_pending (ph : Nat) (v : Plot) : (s.setPlot ph v).pending = s.pending := rfl

@[simp] theorem State.setProc_plots (p : Proc) (v : Processor) : (s.setProc p v).plots = s.plots := rfl
@[simp] theorem State.setProc_fields (p : Proc) (v : Processor) : (s.setProc p v).fields = s.fields := rfl
@[simp] theorem State.setProc_emcs (p : Proc) (v : Processor) : (s.setProc p v).emcs = s.emcs := rfl
@[simp] theorem State.setProc_ports (p : Proc) (v : Processor) : (s.setProc p v).ports = s.ports := rfl
@[simp] theorem State.setProc_edge (p : Proc) (v : Processor) : (s.setProc p v).edge = s.edge := rfl
@[simp] theorem State.setProc_stratus (p : Proc) (v : Processor) : (s.setProc p v).stratus = s.stratus := rfl
@[simp] theorem State.setProc_nimbus (p : Proc) (v : Processor) : (s.setProc p v).nimbus = s.nimbus := rfl
@[simp] theorem State.setProc_notices (p : Proc) (v : Processor) : (s.setProc p v).notices = s.notices := rfl
@[simp] theorem State.setProc_swHeld (p : Proc) (v : Processor) : (s.setProc p v).swHeld = s.swHeld := rfl
@[simp] theorem State.setProc_parcels (p : Proc) (v : Processor) : (s.setProc p v).parcels = s.parcels := rfl
@[simp] theorem State.setProc_held (p : Proc) (v : Processor) : (s.setProc p v).held = s.held := rfl
@[simp] theorem State.setProc_roleHolds (p : Proc) (v : Processor) : (s.setProc p v).roleHolds = s.roleHolds := rfl
@[simp] theorem State.setProc_hif (p : Proc) (v : Processor) : (s.setProc p v).hif = s.hif := rfl
@[simp] theorem State.setProc_nv (p : Proc) (v : Processor) : (s.setProc p v).nv = s.nv := rfl
@[simp] theorem State.setProc_svc (p : Proc) (v : Processor) : (s.setProc p v).svc = s.svc := rfl
@[simp] theorem State.setProc_pwr (p : Proc) (v : Processor) : (s.setProc p v).pwr = s.pwr := rfl
@[simp] theorem State.setProc_clk (p : Proc) (v : Processor) : (s.setProc p v).clk = s.clk := rfl
@[simp] theorem State.setProc_dbg (p : Proc) (v : Processor) : (s.setProc p v).dbg = s.dbg := rfl
@[simp] theorem State.setProc_regs (p : Proc) (v : Processor) : (s.setProc p v).regs = s.regs := rfl
@[simp] theorem State.setProc_out (p : Proc) (v : Processor) : (s.setProc p v).out = s.out := rfl
@[simp] theorem State.setProc_nack (p : Proc) (v : Processor) : (s.setProc p v).nack = s.nack := rfl
@[simp] theorem State.setProc_freeCtr (p : Proc) (v : Processor) : (s.setProc p v).freeCtr = s.freeCtr := rfl
@[simp] theorem State.setProc_pending (p : Proc) (v : Processor) : (s.setProc p v).pending = s.pending := rfl

@[simp] theorem State.setParcel_plots (p : Parcel) : (s.setParcel p).plots = s.plots := rfl
@[simp] theorem State.setParcel_fields (p : Parcel) : (s.setParcel p).fields = s.fields := rfl
@[simp] theorem State.setParcel_emcs (p : Parcel) : (s.setParcel p).emcs = s.emcs := rfl
@[simp] theorem State.setParcel_ports (p : Parcel) : (s.setParcel p).ports = s.ports := rfl
@[simp] theorem State.setParcel_edge (p : Parcel) : (s.setParcel p).edge = s.edge := rfl
@[simp] theorem State.setParcel_stratus (p : Parcel) : (s.setParcel p).stratus = s.stratus := rfl
@[simp] theorem State.setParcel_nimbus (p : Parcel) : (s.setParcel p).nimbus = s.nimbus := rfl
@[simp] theorem State.setParcel_notices (p : Parcel) : (s.setParcel p).notices = s.notices := rfl
@[simp] theorem State.setParcel_swHeld (p : Parcel) : (s.setParcel p).swHeld = s.swHeld := rfl
@[simp] theorem State.setParcel_held (p : Parcel) : (s.setParcel p).held = s.held := rfl
@[simp] theorem State.setParcel_roleHolds (p : Parcel) : (s.setParcel p).roleHolds = s.roleHolds := rfl
@[simp] theorem State.setParcel_hif (p : Parcel) : (s.setParcel p).hif = s.hif := rfl
@[simp] theorem State.setParcel_procs (p : Parcel) : (s.setParcel p).procs = s.procs := rfl
@[simp] theorem State.setParcel_nv (p : Parcel) : (s.setParcel p).nv = s.nv := rfl
@[simp] theorem State.setParcel_svc (p : Parcel) : (s.setParcel p).svc = s.svc := rfl
@[simp] theorem State.setParcel_pwr (p : Parcel) : (s.setParcel p).pwr = s.pwr := rfl
@[simp] theorem State.setParcel_clk (p : Parcel) : (s.setParcel p).clk = s.clk := rfl
@[simp] theorem State.setParcel_dbg (p : Parcel) : (s.setParcel p).dbg = s.dbg := rfl
@[simp] theorem State.setParcel_regs (p : Parcel) : (s.setParcel p).regs = s.regs := rfl
@[simp] theorem State.setParcel_out (p : Parcel) : (s.setParcel p).out = s.out := rfl
@[simp] theorem State.setParcel_nack (p : Parcel) : (s.setParcel p).nack = s.nack := rfl
@[simp] theorem State.setParcel_freeCtr (p : Parcel) : (s.setParcel p).freeCtr = s.freeCtr := rfl
@[simp] theorem State.setParcel_pending (p : Parcel) : (s.setParcel p).pending = s.pending := rfl

@[simp] theorem State.setField_field (f g : Nat) (v : Field) :
    (s.setField f v).field g = if f = g ∧ f < s.fields.length then v else s.field g := by
  unfold State.field State.setField
  rw [List.getElem?_set]
  split
  · subst_vars; split <;> simp_all
  · simp_all

@[simp] theorem State.setEmc_emc (c d : Nat) (v : Emc) : (s.setEmc c v).emc d = if c = d ∧ c < s.emcs.length then v else s.emc d := by
  unfold State.emc State.setEmc
  rw [List.getElem?_set]
  split
  · subst_vars; split <;> simp_all
  · simp_all

@[simp] theorem State.setPort_port (p q : Nat) (v : Port) :
    (s.setPort p v).port q = if p = q ∧ p < s.ports.length then v else s.port q := by
  unfold State.port State.setPort
  rw [List.getElem?_set]
  split
  · subst_vars; split <;> simp_all
  · simp_all

/-- A plot after a plot is put: the one put shows at least its field's epoch. -/
@[simp] theorem State.setPlot_plot (ph q : Nat) (v : Plot) :
    (s.setPlot ph v).plot q = if q = ph then v.atEpoch (s.epochAt ph) else s.plot q := by
  unfold State.plot State.setPlot
  simp only [cellGet_cellSet]
  split
  · subst_vars; rfl
  · rfl

theorem State.setProc_proc (p q : Proc) (v : Processor) (h : s.procs.length = 4) :
    (s.setProc p v).proc q = if p = q then v else s.proc q := by
  unfold State.proc State.setProc
  rw [List.getElem?_set]
  cases p <;> cases q <;> simp [procIndex, h]

@[simp] theorem State.setPlot_epochAt (ph q : Nat) (v : Plot) : (s.setPlot ph v).epochAt q = s.epochAt q := rfl

/-- The end of Idle changes the power block alone; outside Idle nothing. -/
theorem State.wake_pwr : ∃ v, s.wake = { s with pwr := v } := by
  unfold State.wake
  split
  · exact ⟨_, rfl⟩
  · exact ⟨s.pwr, rfl⟩

theorem State.wake_awake (h : s.pwr.state ≠ .idle) : s.wake = s := by
  unfold State.wake
  split
  · rename_i e; exact absurd (by simpa using e) h
  · rfl

/-! ## Lists keep their length -/

@[simp] theorem State.setField_length (f : Nat) (v : Field) : (s.setField f v).fields.length = s.fields.length := by simp [State.setField]
@[simp] theorem State.setEmc_length (c : Nat) (v : Emc) : (s.setEmc c v).emcs.length = s.emcs.length := by simp [State.setEmc]
@[simp] theorem State.setPort_length (p : Nat) (v : Port) : (s.setPort p v).ports.length = s.ports.length := by simp [State.setPort]
@[simp] theorem State.setProc_length (p : Proc) (v : Processor) : (s.setProc p v).procs.length = s.procs.length := by simp [State.setProc]

end Sys2Proof.Machine
end

