-- ==== Sys2Proof/Laws/Post.lean ====
section
/-! SUPPORT. What posting does: a completion, a second completion or an event changes the host interface alone (spec/15 R498-R504). -/

namespace Sys2Proof.Machine

theorem State.drainBacklog_hif (s : State) (n : Nat) : ∃ h, s.drainBacklog n = { s with hif := h } := by
  induction n generalizing s with
  | zero => exact ⟨s.hif, rfl⟩
  | succ n ih =>
    unfold State.drainBacklog
    split
    · exact ⟨s.hif, rfl⟩
    · split
      · split
        · exact ⟨s.hif, rfl⟩
        · obtain ⟨h', e⟩ := ih _; exact ⟨h', e.trans rfl⟩
      · split
        · exact ⟨s.hif, rfl⟩
        · split
          · exact ⟨s.hif, rfl⟩
          · obtain ⟨h', e⟩ := ih _; exact ⟨h', e.trans rfl⟩

/-- Posting an entry changes the host interface alone. -/
theorem State.post_hif (s : State) (e : Entry) : ∃ h, s.post e = { s with hif := h } := by
  unfold State.post
  split
  · exact ⟨_, rfl⟩
  · obtain ⟨h, e⟩ := State.drainBacklog_hif _ _; exact ⟨h, e.trans rfl⟩

theorem State.respond_hif (s : State) (c : Cmd) (kind status : Nat) (words : List Nat) (report : Option (List Byte)) (restarted : Bool) :
    ∃ h, s.respond c kind status words report restarted = { s with hif := h } := State.post_hif _ _

theorem State.complete_hif (s : State) (c : Cmd) (status : Nat) (words : List Nat) :
    ∃ h, s.complete c status words = { s with hif := h } := State.post_hif _ _

theorem State.second_hif (s : State) (c : Cmd) (status : Nat) (words : List Nat) :
    ∃ h, s.second c status words = { s with hif := h } := State.post_hif _ _

theorem State.event_hif (s : State) (code : Nat) (words : List Nat) (report : Option (List Byte)) :
    ∃ h, s.event code words report = { s with hif := h } := State.post_hif _ _

@[simp] theorem State.post_plots (s : State) (e : Entry) : (s.post e).plots = s.plots := by obtain ⟨h, e⟩ := s.post_hif e; rw [e]
@[simp] theorem State.post_fields (s : State) (e : Entry) : (s.post e).fields = s.fields := by obtain ⟨h, e⟩ := s.post_hif e; rw [e]
@[simp] theorem State.post_emcs (s : State) (e : Entry) : (s.post e).emcs = s.emcs := by obtain ⟨h, e⟩ := s.post_hif e; rw [e]
@[simp] theorem State.post_ports (s : State) (e : Entry) : (s.post e).ports = s.ports := by obtain ⟨h, e⟩ := s.post_hif e; rw [e]
@[simp] theorem State.post_edge (s : State) (e : Entry) : (s.post e).edge = s.edge := by obtain ⟨h, e⟩ := s.post_hif e; rw [e]
@[simp] theorem State.post_stratus (s : State) (e : Entry) : (s.post e).stratus = s.stratus := by obtain ⟨h, e⟩ := s.post_hif e; rw [e]
@[simp] theorem State.post_nimbus (s : State) (e : Entry) : (s.post e).nimbus = s.nimbus := by obtain ⟨h, e⟩ := s.post_hif e; rw [e]
@[simp] theorem State.post_notices (s : State) (e : Entry) : (s.post e).notices = s.notices := by obtain ⟨h, e⟩ := s.post_hif e; rw [e]
@[simp] theorem State.post_swHeld (s : State) (e : Entry) : (s.post e).swHeld = s.swHeld := by obtain ⟨h, e⟩ := s.post_hif e; rw [e]
@[simp] theorem State.post_parcels (s : State) (e : Entry) : (s.post e).parcels = s.parcels := by obtain ⟨h, e⟩ := s.post_hif e; rw [e]
@[simp] theorem State.post_held (s : State) (e : Entry) : (s.post e).held = s.held := by obtain ⟨h, e⟩ := s.post_hif e; rw [e]
@[simp] theorem State.post_roleHolds (s : State) (e : Entry) : (s.post e).roleHolds = s.roleHolds := by obtain ⟨h, e⟩ := s.post_hif e; rw [e]
@[simp] theorem State.post_procs (s : State) (e : Entry) : (s.post e).procs = s.procs := by obtain ⟨h, e⟩ := s.post_hif e; rw [e]
@[simp] theorem State.post_nv (s : State) (e : Entry) : (s.post e).nv = s.nv := by obtain ⟨h, e⟩ := s.post_hif e; rw [e]
@[simp] theorem State.post_svc (s : State) (e : Entry) : (s.post e).svc = s.svc := by obtain ⟨h, e⟩ := s.post_hif e; rw [e]
@[simp] theorem State.post_pwr (s : State) (e : Entry) : (s.post e).pwr = s.pwr := by obtain ⟨h, e⟩ := s.post_hif e; rw [e]
@[simp] theorem State.post_clk (s : State) (e : Entry) : (s.post e).clk = s.clk := by obtain ⟨h, e⟩ := s.post_hif e; rw [e]
@[simp] theorem State.post_dbg (s : State) (e : Entry) : (s.post e).dbg = s.dbg := by obtain ⟨h, e⟩ := s.post_hif e; rw [e]
@[simp] theorem State.post_regs (s : State) (e : Entry) : (s.post e).regs = s.regs := by obtain ⟨h, e⟩ := s.post_hif e; rw [e]
@[simp] theorem State.post_out (s : State) (e : Entry) : (s.post e).out = s.out := by obtain ⟨h, e⟩ := s.post_hif e; rw [e]
@[simp] theorem State.post_nack (s : State) (e : Entry) : (s.post e).nack = s.nack := by obtain ⟨h, e⟩ := s.post_hif e; rw [e]
@[simp] theorem State.post_freeCtr (s : State) (e : Entry) : (s.post e).freeCtr = s.freeCtr := by obtain ⟨h, e⟩ := s.post_hif e; rw [e]
@[simp] theorem State.post_pending (s : State) (e : Entry) : (s.post e).pending = s.pending := by obtain ⟨h, e⟩ := s.post_hif e; rw [e]

@[simp] theorem State.complete_plots (s : State) (c : Cmd) (n : Nat) (l : List Nat) : (s.complete c n l).plots = s.plots := by simp [State.complete, State.respond]
@[simp] theorem State.complete_fields (s : State) (c : Cmd) (n : Nat) (l : List Nat) : (s.complete c n l).fields = s.fields := by simp [State.complete, State.respond]
@[simp] theorem State.complete_emcs (s : State) (c : Cmd) (n : Nat) (l : List Nat) : (s.complete c n l).emcs = s.emcs := by simp [State.complete, State.respond]
@[simp] theorem State.complete_ports (s : State) (c : Cmd) (n : Nat) (l : List Nat) : (s.complete c n l).ports = s.ports := by simp [State.complete, State.respond]
@[simp] theorem State.complete_edge (s : State) (c : Cmd) (n : Nat) (l : List Nat) : (s.complete c n l).edge = s.edge := by simp [State.complete, State.respond]
@[simp] theorem State.complete_stratus (s : State) (c : Cmd) (n : Nat) (l : List Nat) : (s.complete c n l).stratus = s.stratus := by simp [State.complete, State.respond]
@[simp] theorem State.complete_nimbus (s : State) (c : Cmd) (n : Nat) (l : List Nat) : (s.complete c n l).nimbus = s.nimbus := by simp [State.complete, State.respond]
@[simp] theorem State.complete_notices (s : State) (c : Cmd) (n : Nat) (l : List Nat) : (s.complete c n l).notices = s.notices := by simp [State.complete, State.respond]
@[simp] theorem State.complete_swHeld (s : State) (c : Cmd) (n : Nat) (l : List Nat) : (s.complete c n l).swHeld = s.swHeld := by simp [State.complete, State.respond]
@[simp] theorem State.complete_parcels (s : State) (c : Cmd) (n : Nat) (l : List Nat) : (s.complete c n l).parcels = s.parcels := by simp [State.complete, State.respond]
@[simp] theorem State.complete_held (s : State) (c : Cmd) (n : Nat) (l : List Nat) : (s.complete c n l).held = s.held := by simp [State.complete, State.respond]
@[simp] theorem State.complete_roleHolds (s : State) (c : Cmd) (n : Nat) (l : List Nat) : (s.complete c n l).roleHolds = s.roleHolds := by simp [State.complete, State.respond]
@[simp] theorem State.complete_procs (s : State) (c : Cmd) (n : Nat) (l : List Nat) : (s.complete c n l).procs = s.procs := by simp [State.complete, State.respond]
@[simp] theorem State.complete_nv (s : State) (c : Cmd) (n : Nat) (l : List Nat) : (s.complete c n l).nv = s.nv := by simp [State.complete, State.respond]
@[simp] theorem State.complete_svc (s : State) (c : Cmd) (n : Nat) (l : List Nat) : (s.complete c n l).svc = s.svc := by simp [State.complete, State.respond]
@[simp] theorem State.complete_pwr (s : State) (c : Cmd) (n : Nat) (l : List Nat) : (s.complete c n l).pwr = s.pwr := by simp [State.complete, State.respond]
@[simp] theorem State.complete_clk (s : State) (c : Cmd) (n : Nat) (l : List Nat) : (s.complete c n l).clk = s.clk := by simp [State.complete, State.respond]
@[simp] theorem State.complete_dbg (s : State) (c : Cmd) (n : Nat) (l : List Nat) : (s.complete c n l).dbg = s.dbg := by simp [State.complete, State.respond]
@[simp] theorem State.complete_regs (s : State) (c : Cmd) (n : Nat) (l : List Nat) : (s.complete c n l).regs = s.regs := by simp [State.complete, State.respond]
@[simp] theorem State.complete_out (s : State) (c : Cmd) (n : Nat) (l : List Nat) : (s.complete c n l).out = s.out := by simp [State.complete, State.respond]
@[simp] theorem State.complete_nack (s : State) (c : Cmd) (n : Nat) (l : List Nat) : (s.complete c n l).nack = s.nack := by simp [State.complete, State.respond]
@[simp] theorem State.complete_freeCtr (s : State) (c : Cmd) (n : Nat) (l : List Nat) : (s.complete c n l).freeCtr = s.freeCtr := by simp [State.complete, State.respond]
@[simp] theorem State.complete_pending (s : State) (c : Cmd) (n : Nat) (l : List Nat) : (s.complete c n l).pending = s.pending := by simp [State.complete, State.respond]

@[simp] theorem State.second_plots (s : State) (c : Cmd) (n : Nat) (l : List Nat) : (s.second c n l).plots = s.plots := by simp [State.second, State.respond]
@[simp] theorem State.second_fields (s : State) (c : Cmd) (n : Nat) (l : List Nat) : (s.second c n l).fields = s.fields := by simp [State.second, State.respond]
@[simp] theorem State.second_emcs (s : State) (c : Cmd) (n : Nat) (l : List Nat) : (s.second c n l).emcs = s.emcs := by simp [State.second, State.respond]
@[simp] theorem State.second_ports (s : State) (c : Cmd) (n : Nat) (l : List Nat) : (s.second c n l).ports = s.ports := by simp [State.second, State.respond]
@[simp] theorem State.second_edge (s : State) (c : Cmd) (n : Nat) (l : List Nat) : (s.second c n l).edge = s.edge := by simp [State.second, State.respond]
@[simp] theorem State.second_stratus (s : State) (c : Cmd) (n : Nat) (l : List Nat) : (s.second c n l).stratus = s.stratus := by simp [State.second, State.respond]
@[simp] theorem State.second_nimbus (s : State) (c : Cmd) (n : Nat) (l : List Nat) : (s.second c n l).nimbus = s.nimbus := by simp [State.second, State.respond]
@[simp] theorem State.second_notices (s : State) (c : Cmd) (n : Nat) (l : List Nat) : (s.second c n l).notices = s.notices := by simp [State.second, State.respond]
@[simp] theorem State.second_swHeld (s : State) (c : Cmd) (n : Nat) (l : List Nat) : (s.second c n l).swHeld = s.swHeld := by simp [State.second, State.respond]
@[simp] theorem State.second_parcels (s : State) (c : Cmd) (n : Nat) (l : List Nat) : (s.second c n l).parcels = s.parcels := by simp [State.second, State.respond]
@[simp] theorem State.second_held (s : State) (c : Cmd) (n : Nat) (l : List Nat) : (s.second c n l).held = s.held := by simp [State.second, State.respond]
@[simp] theorem State.second_roleHolds (s : State) (c : Cmd) (n : Nat) (l : List Nat) : (s.second c n l).roleHolds = s.roleHolds := by simp [State.second, State.respond]
@[simp] theorem State.second_procs (s : State) (c : Cmd) (n : Nat) (l : List Nat) : (s.second c n l).procs = s.procs := by simp [State.second, State.respond]
@[simp] theorem State.second_nv (s : State) (c : Cmd) (n : Nat) (l : List Nat) : (s.second c n l).nv = s.nv := by simp [State.second, State.respond]
@[simp] theorem State.second_svc (s : State) (c : Cmd) (n : Nat) (l : List Nat) : (s.second c n l).svc = s.svc := by simp [State.second, State.respond]
@[simp] theorem State.second_pwr (s : State) (c : Cmd) (n : Nat) (l : List Nat) : (s.second c n l).pwr = s.pwr := by simp [State.second, State.respond]
@[simp] theorem State.second_clk (s : State) (c : Cmd) (n : Nat) (l : List Nat) : (s.second c n l).clk = s.clk := by simp [State.second, State.respond]
@[simp] theorem State.second_dbg (s : State) (c : Cmd) (n : Nat) (l : List Nat) : (s.second c n l).dbg = s.dbg := by simp [State.second, State.respond]
@[simp] theorem State.second_regs (s : State) (c : Cmd) (n : Nat) (l : List Nat) : (s.second c n l).regs = s.regs := by simp [State.second, State.respond]
@[simp] theorem State.second_out (s : State) (c : Cmd) (n : Nat) (l : List Nat) : (s.second c n l).out = s.out := by simp [State.second, State.respond]
@[simp] theorem State.second_nack (s : State) (c : Cmd) (n : Nat) (l : List Nat) : (s.second c n l).nack = s.nack := by simp [State.second, State.respond]
@[simp] theorem State.second_freeCtr (s : State) (c : Cmd) (n : Nat) (l : List Nat) : (s.second c n l).freeCtr = s.freeCtr := by simp [State.second, State.respond]
@[simp] theorem State.second_pending (s : State) (c : Cmd) (n : Nat) (l : List Nat) : (s.second c n l).pending = s.pending := by simp [State.second, State.respond]

@[simp] theorem State.eventFrom_plots (s : State) (f c e n : Nat) (l : List Nat) (r : Option (List Byte)) : (s.eventFrom f c e n l r).plots = s.plots := by simp [State.eventFrom]
@[simp] theorem State.eventFrom_fields (s : State) (f c e n : Nat) (l : List Nat) (r : Option (List Byte)) : (s.eventFrom f c e n l r).fields = s.fields := by simp [State.eventFrom]
@[simp] theorem State.eventFrom_emcs (s : State) (f c e n : Nat) (l : List Nat) (r : Option (List Byte)) : (s.eventFrom f c e n l r).emcs = s.emcs := by simp [State.eventFrom]
@[simp] theorem State.eventFrom_ports (s : State) (f c e n : Nat) (l : List Nat) (r : Option (List Byte)) : (s.eventFrom f c e n l r).ports = s.ports := by simp [State.eventFrom]
@[simp] theorem State.eventFrom_edge (s : State) (f c e n : Nat) (l : List Nat) (r : Option (List Byte)) : (s.eventFrom f c e n l r).edge = s.edge := by simp [State.eventFrom]
@[simp] theorem State.eventFrom_stratus (s : State) (f c e n : Nat) (l : List Nat) (r : Option (List Byte)) : (s.eventFrom f c e n l r).stratus = s.stratus := by simp [State.eventFrom]
@[simp] theorem State.eventFrom_nimbus (s : State) (f c e n : Nat) (l : List Nat) (r : Option (List Byte)) : (s.eventFrom f c e n l r).nimbus = s.nimbus := by simp [State.eventFrom]
@[simp] theorem State.eventFrom_notices (s : State) (f c e n : Nat) (l : List Nat) (r : Option (List Byte)) : (s.eventFrom f c e n l r).notices = s.notices := by simp [State.eventFrom]
@[simp] theorem State.eventFrom_swHeld (s : State) (f c e n : Nat) (l : List Nat) (r : Option (List Byte)) : (s.eventFrom f c e n l r).swHeld = s.swHeld := by simp [State.eventFrom]
@[simp] theorem State.eventFrom_parcels (s : State) (f c e n : Nat) (l : List Nat) (r : Option (List Byte)) : (s.eventFrom f c e n l r).parcels = s.parcels := by simp [State.eventFrom]
@[simp] theorem State.eventFrom_held (s : State) (f c e n : Nat) (l : List Nat) (r : Option (List Byte)) : (s.eventFrom f c e n l r).held = s.held := by simp [State.eventFrom]
@[simp] theorem State.eventFrom_roleHolds (s : State) (f c e n : Nat) (l : List Nat) (r : Option (List Byte)) : (s.eventFrom f c e n l r).roleHolds = s.roleHolds := by simp [State.eventFrom]
@[simp] theorem State.eventFrom_procs (s : State) (f c e n : Nat) (l : List Nat) (r : Option (List Byte)) : (s.eventFrom f c e n l r).procs = s.procs := by simp [State.eventFrom]
@[simp] theorem State.eventFrom_nv (s : State) (f c e n : Nat) (l : List Nat) (r : Option (List Byte)) : (s.eventFrom f c e n l r).nv = s.nv := by simp [State.eventFrom]
@[simp] theorem State.eventFrom_svc (s : State) (f c e n : Nat) (l : List Nat) (r : Option (List Byte)) : (s.eventFrom f c e n l r).svc = s.svc := by simp [State.eventFrom]
@[simp] theorem State.eventFrom_pwr (s : State) (f c e n : Nat) (l : List Nat) (r : Option (List Byte)) : (s.eventFrom f c e n l r).pwr = s.pwr := by simp [State.eventFrom]
@[simp] theorem State.eventFrom_clk (s : State) (f c e n : Nat) (l : List Nat) (r : Option (List Byte)) : (s.eventFrom f c e n l r).clk = s.clk := by simp [State.eventFrom]
@[simp] theorem State.eventFrom_dbg (s : State) (f c e n : Nat) (l : List Nat) (r : Option (List Byte)) : (s.eventFrom f c e n l r).dbg = s.dbg := by simp [State.eventFrom]
@[simp] theorem State.eventFrom_regs (s : State) (f c e n : Nat) (l : List Nat) (r : Option (List Byte)) : (s.eventFrom f c e n l r).regs = s.regs := by simp [State.eventFrom]
@[simp] theorem State.eventFrom_out (s : State) (f c e n : Nat) (l : List Nat) (r : Option (List Byte)) : (s.eventFrom f c e n l r).out = s.out := by simp [State.eventFrom]
@[simp] theorem State.eventFrom_nack (s : State) (f c e n : Nat) (l : List Nat) (r : Option (List Byte)) : (s.eventFrom f c e n l r).nack = s.nack := by simp [State.eventFrom]
@[simp] theorem State.eventFrom_freeCtr (s : State) (f c e n : Nat) (l : List Nat) (r : Option (List Byte)) : (s.eventFrom f c e n l r).freeCtr = s.freeCtr := by simp [State.eventFrom]
@[simp] theorem State.eventFrom_pending (s : State) (f c e n : Nat) (l : List Nat) (r : Option (List Byte)) : (s.eventFrom f c e n l r).pending = s.pending := by simp [State.eventFrom]

@[simp] theorem State.event_plots (s : State) (n : Nat) (l : List Nat) (r : Option (List Byte)) : (s.event n l r).plots = s.plots := by simp [State.event]
@[simp] theorem State.event_fields (s : State) (n : Nat) (l : List Nat) (r : Option (List Byte)) : (s.event n l r).fields = s.fields := by simp [State.event]
@[simp] theorem State.event_emcs (s : State) (n : Nat) (l : List Nat) (r : Option (List Byte)) : (s.event n l r).emcs = s.emcs := by simp [State.event]
@[simp] theorem State.event_ports (s : State) (n : Nat) (l : List Nat) (r : Option (List Byte)) : (s.event n l r).ports = s.ports := by simp [State.event]
@[simp] theorem State.event_edge (s : State) (n : Nat) (l : List Nat) (r : Option (List Byte)) : (s.event n l r).edge = s.edge := by simp [State.event]
@[simp] theorem State.event_stratus (s : State) (n : Nat) (l : List Nat) (r : Option (List Byte)) : (s.event n l r).stratus = s.stratus := by simp [State.event]
@[simp] theorem State.event_nimbus (s : State) (n : Nat) (l : List Nat) (r : Option (List Byte)) : (s.event n l r).nimbus = s.nimbus := by simp [State.event]
@[simp] theorem State.event_notices (s : State) (n : Nat) (l : List Nat) (r : Option (List Byte)) : (s.event n l r).notices = s.notices := by simp [State.event]
@[simp] theorem State.event_swHeld (s : State) (n : Nat) (l : List Nat) (r : Option (List Byte)) : (s.event n l r).swHeld = s.swHeld := by simp [State.event]
@[simp] theorem State.event_parcels (s : State) (n : Nat) (l : List Nat) (r : Option (List Byte)) : (s.event n l r).parcels = s.parcels := by simp [State.event]
@[simp] theorem State.event_held (s : State) (n : Nat) (l : List Nat) (r : Option (List Byte)) : (s.event n l r).held = s.held := by simp [State.event]
@[simp] theorem State.event_roleHolds (s : State) (n : Nat) (l : List Nat) (r : Option (List Byte)) : (s.event n l r).roleHolds = s.roleHolds := by simp [State.event]
@[simp] theorem State.event_procs (s : State) (n : Nat) (l : List Nat) (r : Option (List Byte)) : (s.event n l r).procs = s.procs := by simp [State.event]
@[simp] theorem State.event_nv (s : State) (n : Nat) (l : List Nat) (r : Option (List Byte)) : (s.event n l r).nv = s.nv := by simp [State.event]
@[simp] theorem State.event_svc (s : State) (n : Nat) (l : List Nat) (r : Option (List Byte)) : (s.event n l r).svc = s.svc := by simp [State.event]
@[simp] theorem State.event_pwr (s : State) (n : Nat) (l : List Nat) (r : Option (List Byte)) : (s.event n l r).pwr = s.pwr := by simp [State.event]
@[simp] theorem State.event_clk (s : State) (n : Nat) (l : List Nat) (r : Option (List Byte)) : (s.event n l r).clk = s.clk := by simp [State.event]
@[simp] theorem State.event_dbg (s : State) (n : Nat) (l : List Nat) (r : Option (List Byte)) : (s.event n l r).dbg = s.dbg := by simp [State.event]
@[simp] theorem State.event_regs (s : State) (n : Nat) (l : List Nat) (r : Option (List Byte)) : (s.event n l r).regs = s.regs := by simp [State.event]
@[simp] theorem State.event_out (s : State) (n : Nat) (l : List Nat) (r : Option (List Byte)) : (s.event n l r).out = s.out := by simp [State.event]
@[simp] theorem State.event_nack (s : State) (n : Nat) (l : List Nat) (r : Option (List Byte)) : (s.event n l r).nack = s.nack := by simp [State.event]
@[simp] theorem State.event_freeCtr (s : State) (n : Nat) (l : List Nat) (r : Option (List Byte)) : (s.event n l r).freeCtr = s.freeCtr := by simp [State.event]
@[simp] theorem State.event_pending (s : State) (n : Nat) (l : List Nat) (r : Option (List Byte)) : (s.event n l r).pending = s.pending := by simp [State.event]

/-- A command in turn is taken off the list, and nothing else changes. -/
theorem State.turn_eq {s : State} {op : Nat} {c : Cmd} {t : State} (h : s.turn op = some (c, t)) :
    c ∈ s.hif.taken ∧ c.op = op ∧ t = { s with hif := { s.hif with taken := s.hif.taken.erase c } } := by
  unfold State.turn at h
  dsimp only at h
  split at h
  · cases h
  · rename_i c' hf
    split at h
    · cases h
    · rename_i hn
      cases h
      refine ⟨List.mem_of_find?_eq_some hf, ?_, rfl⟩
      by_contra hne
      exact hn (.inl hne)

end Sys2Proof.Machine
end

