-- ==== Sys2Proof/Safety.lean ====
section
/-! DEFINITION. What counts as a safe run, in the terms the claims use. Every step answers a next state (no rule of the spec stops the machine
without saying what state it leaves); the module keeps its parts; its byte memories keep their canonical form; a blown fuse stays blown. -/

namespace Sys2Proof.Machine

/-- A command answers a next state that has a property. -/
def Answers (c : Instr) (s : State) (P : State → Prop) : Prop := ∃ t, exec c s = .next t ∧ P t

/-- The module has its 48 fields (01 R18), 24 controllers (09 R315), 16 ports (11 R374), 4 processors (15 R505) and 9 stage records (12 R417); two image
slots, two survey copies and two journals (13 R459, R460); the epoch each field has reached (08 R300). -/
def State.shaped (s : State) : Bool :=
  s.fields.length == 48 && s.emcs.length == 24 && s.ports.length == 16 && s.procs.length == 4 && s.clk.stages.length == 9
    && s.nv.slots.length == 2 && s.nv.copies.length == 2 && s.nv.journals.length == 2
    && s.regs.seen.length == 48

/-- Edge memory, the ledger, host memory as written, the epoch records and the plots as they stand are in canonical form. -/
def State.canonical (s : State) : Bool :=
  s.edge.wf && cellsWf (0 : Byte) s.hif.ledger && cellsWf (0 : Byte) s.hif.mem && cellsWf (0 : Byte) s.regs.records
    && cellsWf Plot.reset s.plots

/-- Every fuse bit that is blown in one state is blown in another. -/
def Nv.fusesStay (a b : Nv) : Prop := ∀ i k, (a.fuse i).getLsbD k = true → (b.fuse i).getLsbD k = true

/-- A safe step: it answers a next state. -/
def State.stepsOn (s : State) : Prop := ∃ t, step s = .next t

end Sys2Proof.Machine
end

