-- ==== Sys2Proof/Certificates/Slice0/Obligations.lean ====
section
/-! DEFINITION. The statements for the provers. The words they share stand first: a plot whose operation is in turn, a packet that comes and is
taken, a lost slot, the rows of a family. `Answers c s P` says that command c answers a next state of which P holds (Safety.lean). -/

open Sys2Proof Sys2Proof.Machine

namespace Sys2Proof.Machine

/-- A plot after the slot in turn has issued (02 R74, 05 R182): its firing moves on, the next number is taken, progress is marked. -/
def Plot.afterIssue (p : Plot) (f : Firing) (h : Header) (w : W128) : Plot :=
  let q := p.setFiring (f.advance h w)
  { q with seq := { q.seq with next := p.seq.next + 1, stepOne := false }, watch := { q.watch with moved := true } }

/-- At plot p, which works as run r, the operation w of firing f is in turn: it may issue, its word breaks no rule (R81), and it does not send
from a commit group by another class than 5 (07 R267). -/
def InTurn (s : State) (p : XY) (r : Run) (f : Firing) (h : Header) (w : W128) : Prop :=
  s.runAt p.x p.y = some r ∧ r.p.issuable = some (f, h, w) ∧ opIllegal w = false ∧
    ¬ ((r.p.group.state = 1 ∨ r.p.group.state = 2) ∧ specKind (opDst w) = kChan ∧ opClass w ≠ 5)

/-- The run and the flight with which an operation in turn begins. -/
def Run.begun (r : Run) (f : Firing) (h : Header) (w : W128) : Run := { r with p := r.p.afterIssue f h w }
def Run.flightOf (r : Run) (f : Firing) (h : Header) (w : W128) : Flight := r.p.newFlight f h w

/-- A command's effect at one plot: what stood there as run r stands there as run r'. -/
def Turns (c : Instr) (s : State) (r r' : Run) : Prop := exec c s = .next (s.putRun r.p r')

/-- Packet n of Stratus comes to its destination as k: no earlier packet of its flow is before it (08 R282), no fence stops it on the way by which it left
(08 R294), the errors of its links have marked its data (08 R296); u is the state without it, those errors counted. -/
def Comes (s : State) (n : Nat) (err : NetErr) (k : Packet) (u : State) : Prop :=
  ∃ e v, s.takePacket n = some (e, v) ∧ v.fenceHit e.way = none ∧ k = { e.pkt with body := e.pkt.body.mar err.poison } ∧
    u = v.linkErrors (v.placeField e.pkt.dst) err

/-- A packet for the plot at (x, y), which works as run r in state u, leaves it as run r'. -/
def Lands (c : Instr) (s u : State) (r r' : Run) : Prop := exec c s = .next (u.putRun r.p r')

/-- A slot of a lost tree before and after the loss (07 R260): the pending phase completes with the status of the loss and RESULT 0. -/
def LostSlot (a b : Slot) (status : Nat) : Prop :=
  b.lost = status ∧ b.role = a.role ∧ b.tree = a.tree ∧
  (a.role = 1 → a.arrived = true → b.arrived = false ∧ b.phase = (a.phase + 1) % 65536 ∧ b.result = 0 ∧ b.status = status % 4) ∧
  (a.role = 1 → a.arrived = false → b.phase = a.phase ∧ b.result = a.result ∧ b.status = a.status) ∧
  (a.role ≠ 1 → 0 < a.count → b.count = 0 ∧ b.phase = (a.phase + 1) % 65536 ∧ b.result = 0 ∧ b.status = status % 4)

/-- Data at an edge address, cut where a granule of 4,096 bytes ends. -/
def edgePieces : Nat → Nat → Data → List (Nat × Data)
  | 0, _, _ => []
  | n + 1, a, d =>
    if d.isEmpty then []
    else (a, d.take (4096 - a % 4096)) :: edgePieces n (a + (4096 - a % 4096)) (d.drop (4096 - a % 4096))

/-- n units of an operation are done in turn, from unit k on. -/
def UnitsDone (u : Nat → Run → Flight → Run → Flight → Prop) : Nat → Nat → Run → Flight → Run → Flight → Prop
  | 0, _, r, f, r', f' => r' = r ∧ f' = f
  | n + 1, k, r, f, r', f' => ∃ r1 f1, u k r f r1 f1 ∧ UnitsDone u n (k + 1) r1 f1 r' f'

/-- What a fault of an operation leaves at a plot that was r and ran (02 R87): the fault bits, the record where none stood (02 R97, R149), the plot FAULTED.
Memory, queues and rings stay. -/
def Trapped (r r' : Run) (src : TrapSrc) (bits : BitVec 5) (cause addr nan : Nat) : Prop :=
  r'.p.trap.fault = r.p.trap.fault ||| bits ∧
  (r.p.trap.info.getLsbD 0 = true → { r'.p.trap with fault := r.p.trap.fault } = r.p.trap) ∧
  (r.p.trap.info.getLsbD 0 = false → { r'.p.trap with fault := r.p.trap.fault } =
    { fault := r.p.trap.fault, info := BitVec.ofNat 32 (1 + cause * 2 + src.sheet % 8 * 16 + src.slot % 64 * 128), fire := BitVec.ofNat 32 src.fire
      opndA := src.opndA, opndB := src.opndB, addr := BitVec.ofNat 64 addr, plot := r.id, nan := BitVec.ofNat 32 nan }) ∧
  r'.p.st = .faulted ∧ r'.p.mem = r.p.mem ∧ r'.p.queues = r.p.queues ∧ r'.p.rings = r.p.rings

/-- The fault of an operand's poison (02 R82), of a NaN (03 R141, R147), or of both in one cycle, where the record is the poison's (03 R148). -/
def DataFaulted (r r' : Run) (src : TrapSrc) (poison : Bool) (nan : Option Nat) : Prop :=
  Trapped r r' src ((if poison then 2 else 0) ||| (if nan.isSome then 16 else 0)) (if poison then 2 else 5) 0 (if poison then 0 else nan.getD 0)

/-- The operands of vector v are there: A of vecShape's bytes, and B where the operation reads it. -/
def VectorFetched (w : W128) (v : Nat) (r : Run) (f : Flight) (r2 : Run) (f2 : Flight) (dA dB : Data) : Prop :=
  let sh := vecShape w
  let n := vecBytes sh.src (vecElems sh.src sh.dst)
  ∃ r1 f1, r.fetch f (opSrcA w) v n = .got r1 f1 dA ∧
    (if sh.two then r1.fetch { f1 with aData := dA, aReady := true } (opSrcB w) v n else .got r1 { f1 with aData := dA, aReady := true } [])
      = .got r2 f2 dB

/-- The elements of a vector's operands, and the run once its free values are taken. -/
def vectorA (w : W128) (d : Data) : List Nat := unpackElems (vecShape w).src (vecElems (vecShape w).src (vecShape w).dst) d
def vectorB (w : W128) (d : Data) : List Nat := if (vecShape w).two then vectorA w d else []
def vectorDrawn (w : W128) (r : Run) : Run :=
  if opClass w = 2 ∧ (opCode w = 3 ∨ opCode w = 7) then { r with free := r.free + vecElems (vecShape w).src (vecShape w).dst } else r

/-- Vector v is done: its operands are there and clean, with the NaN trap on none of its elements is or becomes a NaN, and DST takes the packed list
of its result elements, without poison. -/
def VectorDone (w : W128) (v : Nat) (r : Run) (f : Flight) (r' : Run) (f' : Flight) : Prop :=
  ∃ r2 f2 dA dB f4, VectorFetched w v r f r2 f2 dA dB ∧ (dA.any (·.2)) = false ∧ (dB.any (·.2)) = false ∧
    (let res := vectorResult w r2.free (vectorA w dA) (vectorB w dB)
     let d := cleanData ((vecShape w).dst.pack res)
     (r.p.nanTrap = true → vectorNan w r2.free v (vectorA w dA) (vectorB w dB) = none ∧ vectorMade w (vectorA w dA) res = none) ∧
     (vectorDrawn w r2).deliver { f2 with done := v + 1, aReady := false, aData := [], out := [d] } v d = .on r' f4 ∧
     f' = { f4 with out := [], outDone := v + 1, wait := .none })

/-- Unit k of a move is done: what is fetched, its poison with it, is delivered. -/
def MoveDone (w : W128) (k : Nat) (r : Run) (f : Flight) (r' : Run) (f' : Flight) : Prop :=
  ∃ r1 f1 f2 d, r.fetch f (opSrcA w) k (mpUnit (opParam w)) = .got r1 f1 d ∧
    r1.deliver { f1 with out := [d], done := k + 1 } k d = .on r' f2 ∧ f' = { f2 with out := [], outDone := k + 1, wait := .none }

/-- The operands of step k of a tensor operation are there (an entry of words for 0x02, else the data entries of both sides, with a scale entry where a
period begins): what the step adds, whether an operand is poisoned, and the NaN it consumes. -/
def TensorStep (w : W128) (k : Nat) (r : Run) (f : Flight) (r' : Run) (f' : Flight) (c : Contrib) (poison : Bool) (nan : Option Nat) : Prop :=
  (opCode w = 2 → ∃ f1 d, r.fetch f (opSrcA w) k 32 = .got r' f1 d ∧ c = .words k (entryWords d).1 (entryWords d).2 ∧ poison = d.any (·.2) ∧
    nan = tensorConsumed w k (r'.p.tile (tileIndex (opDst w) f.number)) d ((tensorA w).step k d []) ((tensorB w).step k [] []) ∧
    f' = { f1 with done := k + 1, aReady := false }) ∧
  (opCode w ≠ 2 → ∃ r1 f1 f2 dA dB sA sB, r.fetchSide f (tensorA w) (opSrcA w) k f.aData f.aScale = (.got r1 f1 dA, sA) ∧
    r1.fetchSide { f1 with aData := dA, aScale := sA, aReady := true } (tensorB w) (opSrcB w) k f1.bData f1.bScale = (.got r' f2 dB, sB) ∧
    (let a := (tensorA w).step k dA sA
     let b := (tensorB w).step k dB sB
     c = .products (stepProducts a b) ∧ poison = (a.poison || b.poison) ∧
     nan = tensorConsumed w k (r'.p.tile (tileIndex (opDst w) f.number)) dA a b) ∧
    f' = { f2 with aScale := sA, bData := dB, bScale := sB, done := k + 1, aReady := false })

/-- n steps of a tensor operation from step k on, their operands clean and, with the NaN trap on, without NaN; cs is what they add. -/
def TensorSteps (w : W128) : Nat → Nat → Run → Flight → List Contrib → Run → Flight → Prop
  | 0, _, r, f, cs, r', f' => cs = [] ∧ r' = r ∧ f' = f
  | n + 1, k, r, f, cs, r', f' => ∃ r1 f1 c nan cs', TensorStep w k r f r1 f1 c false nan ∧ (r.p.nanTrap = true → nan = none) ∧ cs = c :: cs' ∧
      TensorSteps w n (k + 1) r1 f1 cs' r' f'

/-- The sums after contributions in turn (04 R152, R153), and whether one of them makes a NaN. -/
def sums (w : W128) (a : Accs) (cs : List Contrib) : Accs := cs.foldl (fun a c => (a.resolve (opFpInf w) (tpAnchor (opParam w)) c).1) a
def makesNan (w : W128) : Accs → List Contrib → Bool
  | _, [] => false
  | a, c :: cs => (a.resolve (opFpInf w) (tpAnchor (opParam w)) c).2.isSome || makesNan w (a.resolve (opFpInf w) (tpAnchor (opParam w)) c).1 cs

/-- The commands that are events of one plot. -/
def plotEvents (p : XY) (op rule : Nat) : List Instr :=
  [.noOperation p, .endFiring p, .switchRequest p, .tensorMac p, .tensorClearMac p, .tensorAddWords p, .clearTile p, .vectorAdd p,
   .vectorSubtract p, .vectorMultiply p, .vectorFma p, .vectorMin p, .vectorMax p, .vectorCompare p, .vectorSelect p,
   .vectorAbsoluteValue p, .vectorNegate p, .vectorConvert p, .exp2 p, .log2 p, .reciprocal p, .rsqrt p, .sinOfPhase p, .cosOfPhase p,
   .move p, .edgeRead p, .edgeWrite p, .send p, .sendTile p, .ringRelease p, .finish p]
  ++ [.beaconAdd p, .beaconWait p, .beaconSet p, .beaconWaitSatisfied p, .contourArrive p, .contourWait p, .contourArriveAndWait p,
   .commitOpen p, .commit p, .commitAbort p, .joinParcelCommit p, .joinDecision p, .joinConfirm p, .sequencerMismatch p,
   .operationComplete p op, .operandPopResume p op, .creditWaitResume p op, .firingBegin p, .firingComplete p, .sheetSwitch p,
   .sheetSwitchDone p, .outerIterationBegin p, .outerIterationComplete p, .steeringSwitch p rule, .steeringMerge p rule,
   .generationPeriodFlush p, .ringMessageLand p rule]

/-- The rows that are a plot's operations, with class, operation and, for edge moves, whether they read. -/
def opRows (p : XY) : List (Instr × Nat × Nat × Option Bool) :=
  [(.noOperation p, 0, 0, none), (.endFiring p, 0, 1, none), (.switchRequest p, 0, 2, none), (.tensorMac p, 1, 0, none),
   (.tensorClearMac p, 1, 1, none), (.tensorAddWords p, 1, 2, none), (.clearTile p, 1, 3, none), (.vectorAdd p, 2, 0, none),
   (.vectorSubtract p, 2, 1, none), (.vectorMultiply p, 2, 2, none), (.vectorFma p, 2, 3, none), (.vectorMin p, 2, 4, none),
   (.vectorMax p, 2, 5, none), (.vectorCompare p, 2, 6, none), (.vectorSelect p, 2, 7, none), (.vectorAbsoluteValue p, 2, 8, none),
   (.vectorNegate p, 2, 9, none), (.vectorConvert p, 2, 10, none)]
  ++ [(.exp2 p, 3, 0, none), (.log2 p, 3, 1, none), (.reciprocal p, 3, 2, none), (.rsqrt p, 3, 3, none), (.sinOfPhase p, 3, 4, none),
   (.cosOfPhase p, 3, 5, none), (.move p, 4, 0, none), (.edgeRead p, 4, 0, some true), (.edgeWrite p, 4, 0, some false), (.send p, 5, 0, none),
   (.sendTile p, 5, 1, none), (.ringRelease p, 6, 0, none), (.finish p, 7, 0, none), (.beaconAdd p, 8, 0, none), (.beaconWait p, 8, 1, none),
   (.beaconSet p, 8, 2, none), (.contourArrive p, 9, 0, none), (.contourWait p, 9, 1, none), (.contourArriveAndWait p, 9, 2, none),
   (.commitOpen p, 10, 0, none), (.commit p, 10, 1, none), (.commitAbort p, 10, 2, none), (.joinParcelCommit p, 10, 3, none)]

/-- The rows of the vector and special-function classes with their class and operation codes. -/
def vectorRows (p : XY) : List (Instr × Nat × Nat) :=
  [(.vectorAdd p, 2, 0), (.vectorSubtract p, 2, 1), (.vectorMultiply p, 2, 2), (.vectorFma p, 2, 3), (.vectorMin p, 2, 4), (.vectorMax p, 2, 5),
   (.vectorCompare p, 2, 6), (.vectorSelect p, 2, 7), (.vectorAbsoluteValue p, 2, 8), (.vectorNegate p, 2, 9), (.vectorConvert p, 2, 10),
   (.exp2 p, 3, 0), (.log2 p, 3, 1), (.reciprocal p, 3, 2), (.rsqrt p, 3, 3), (.sinOfPhase p, 3, 4), (.cosOfPhase p, 3, 5)]

end Sys2Proof.Machine

/-! ## The machine as a whole -/

/-- One step takes the command at the front of the queue and carries it out on the state with the rest of the queue. -/
def Obligations.StepRunsFrontCommand : Prop :=
  ∀ (c : Instr) (rest : List Instr) (s : State), step { s with pending := c :: rest } = exec c { s with pending := rest }

/-- Every command answers a next state, in every state: none stops the machine. No command changes the queue of waiting commands. -/
def Obligations.EveryCommandAnswers : Prop :=
  ∀ (c : Instr) (s : State), ∃ t, exec c s = .next t ∧ t.pending = s.pending

/-- With nothing waiting a step is one reference cycle (the model's choice, log entry 3): the reference count advances by one, a released field's
cycle count by the arithmetic cycles of its point, another field's not at all; memory, parcels, module registers, the host interface and the networks
stay. A start-up stage S0 or S1 that has overrun its bound ends in this cycle as FAILED for TIMEOUT, with ALERT_SRC bit 0 set. -/
def Obligations.EmptyQueueTicks : Prop :=
  (∀ s : State, s.pending = [] → s.clk.step ≠ 0 → s.pwr.state ≠ .off →
    (2 < s.clk.stage ∨ s.stageRuns s.clk.stage = false ∨ s.clk.count ≤ (s.stageAt s.clk.stage).start + stageBound s.clk.stage) →
    ∃ t, step s = .next t ∧ t.clk.count = (s.clk.count + 1) % 2 ^ 64 ∧
      (∀ f, (t.field f).cycles = if (s.field f).on then ((s.field f).cycles + pointFreq (s.field f).point) % 2 ^ 64 else (s.field f).cycles) ∧
      t.edge = s.edge ∧ t.parcels = s.parcels ∧ t.held = s.held ∧ t.stratus = s.stratus ∧ t.nimbus = s.nimbus ∧ t.notices = s.notices
        ∧ t.swHeld = s.swHeld ∧ t.hif = s.hif ∧ t.nv = s.nv ∧ t.svc = s.svc ∧ t.pwr = s.pwr ∧ t.dbg = s.dbg ∧ t.regs = s.regs
        ∧ t.ports = s.ports ∧ t.procs = s.procs ∧ t.pending = []) ∧
  (∀ s : State, s.pending = [] → s.clk.step ≠ 0 → s.pwr.state ≠ .off → s.clk.stage ≤ 1 → s.stageRuns s.clk.stage = true →
    (s.stageAt s.clk.stage).start + stageBound s.clk.stage < s.clk.count → s.clk.stages.length = 9 →
    ∃ t, step s = .next t ∧ (t.stageAt s.clk.stage).result = 4 ∧ (t.stageAt s.clk.stage).reason = 1 ∧ t.dbg.alert.getLsbD 0 = true
      ∧ t.clk.count = (s.clk.count + 1) % 2 ^ 64)

/-- After reset the parts of the module are there, its byte memories and plots are in canonical form, and the state is what the After reset columns
give: every plot IDLE without a fault, a fence, a group or a parcel, no field with a pending fault, a fixed clock or a valid hint; LEDGER_NEXT 1, no
ring set up, nothing held or lost, no parcel, debug level None, not READY, before release step 1. One clause is the model's choice and no After reset
value: Bus Master Enable clear (PRESUMED, log entry 6). No other value that the spec gives no reset value for is part of it. -/
def Obligations.ResetLeavesItsValues : Prop :=
  (State.reset.shaped = true ∧ State.reset.canonical = true) ∧
  ((∀ ph, (State.reset.plot ph).st = .idle ∧ (State.reset.plot ph).trap.fault = 0 ∧ (State.reset.plot ph).fence = false
       ∧ (State.reset.plot ph).group.state = 0 ∧ (State.reset.plot ph).parcel = 0) ∧
   (∀ f, (State.reset.field f).pending = false ∧ (State.reset.field f).fixed = false ∧ (State.reset.field f).hintValid = false) ∧
   State.reset.hif.next = 1 ∧ State.reset.hif.ringSet = false ∧ State.reset.hif.busMaster = false ∧ State.reset.hif.backlog = []
     ∧ State.reset.hif.lostCount = 0 ∧ State.reset.parcels = [] ∧ State.reset.pending = [] ∧ State.reset.clk.step = 0
     ∧ State.reset.dbg.level = 0 ∧ State.reset.clk.ready = false)

/-- Every step keeps the number of fields, controllers, ports, processors, stage records, image slots, survey copies, journals and field epochs. -/
def Obligations.PartsKeptByEveryStep : Prop :=
  ∀ s t : State, s.shaped = true → step s = .next t → t.shaped = true

/-- Every step keeps the canonical form of edge memory with its check bytes, of the ledger, of host memory, of the epoch records and of the table of
plots. -/
def Obligations.MemoriesKeptCanonical : Prop :=
  ∀ s t : State, s.canonical = true → step s = .next t → t.canonical = true

/-- No step, reset or loss of power included, puts back a fuse that is blown. -/
def Obligations.FusesStayBlown : Prop :=
  ∀ s t : State, step s = .next t → s.nv.fusesStay t.nv

/-! ## The host interface (spec/15) -/

/-- 15 R489: PERST_N, a hot reset, a function-level reset and a link-down event each reset configuration space, Bus Master Enable, the MSI-X table and
the completion-ring setup (RING_SET 0), and nothing else: the ledger, LEDGER_NEXT, the other registers (the pending-bit array of MSI-X among them),
parcels and commands in execution go on, and an entry that falls due while no ring is set up is held. -/
def Obligations.InterfaceResetsKeepTheRest : Prop :=
  ∀ s : State, ∀ c ∈ [Instr.perstN, .hotReset, .functionLevelReset, .pcieLinkDown], Answers c s fun t =>
    t.hif.ringSet = false ∧ t.hif.busMaster = false ∧ t.hif.msix = Hif.reset.msix ∧ t.hif.config = [] ∧ t.hif.base = 0
      ∧ t.hif.poolSlots = 0 ∧ t.hif.msixPending = s.hif.msixPending ∧ t.hif.ledger = s.hif.ledger ∧ t.hif.next = s.hif.next ∧ t.hif.taken = s.hif.taken
      ∧ t.hif.backlog = s.hif.backlog ∧ t.hif.mem = s.hif.mem ∧ t.hif.cwin = s.hif.cwin ∧ t.hif.legend = s.hif.legend
      ∧ t.hif.lostCount = s.hif.lostCount ∧ t.hif.badAccess = s.hif.badAccess ∧ { t with hif := s.hif } = s
      ∧ (s.hif.backlog.length < 1024 → ∀ e, t.post e = { t with hif := { t.hif with backlog := t.hif.backlog ++ [e] } })

/-- A committed slot that nothing refuses is copied: its COMMIT is written to zero, LEDGER_NEXT advances (from 0xFFFFFFFF to 1) and the command
joins those taken; no other byte of the ledger and nothing outside the interface changes. A copied slot whose SEQ differs from the expected value
completes SEQUENCE; else one of another major version, or of a higher minor one, completes VERSION_MISMATCH; else one with a reserved opcode, or with a
reserved bit set, completes BAD_COMMAND: such a command has no other effect (the order of the three is DEDUCED, log entry 47). While Alidade does not serve, bus mastering is off, the link to the host is
cut, COMMIT is zero, or no ring is set up and the command is no RING_SETUP, the slot waits. -/
def Obligations.LedgerTakesOrRefusesSlots : Prop :=
  (∀ s : State, s.serves .alidade = true → s.hif.busMaster = true → s.hif.cut = false →
     (s.hif.ringSet = true ∨ (s.hif.slotCmd (s.hif.next % 4096)).op = 1) → s.hif.slotWord (s.hif.next % 4096) 0xF8 ≠ 0 →
     slotRefusal s.hif (s.hif.next % 4096) (s.hif.slotCmd (s.hif.next % 4096)) = none →
     Answers .ledgerTake s fun t =>
       t.hif.taken = s.hif.taken ++ [s.hif.slotCmd (s.hif.next % 4096)] ∧
       t.hif.next = (if s.hif.next = 0xFFFFFFFF then 1 else s.hif.next + 1) ∧
       (∀ a, cellGet 0 t.hif.ledger a =
         if 256 * (s.hif.next % 4096) + 0xF8 ≤ a ∧ a < 256 * (s.hif.next % 4096) + 0x100 then 0 else cellGet 0 s.hif.ledger a) ∧
       t.hif.backlog = s.hif.backlog ∧ t.hif.mem = s.hif.mem ∧ { t with hif := s.hif } = s) ∧
  ((∀ s : State, s.serves .alidade = true → s.hif.busMaster = true → s.hif.cut = false →
      (s.hif.ringSet = true ∨ (s.hif.slotCmd (s.hif.next % 4096)).op = 1) → s.hif.slotWord (s.hif.next % 4096) 0xF8 ≠ 0 →
      let slot := s.hif.next % 4096
      let c := s.hif.slotCmd slot
      let commit := s.hif.slotWord slot 0xF8
      let head := s.hif.slotWord slot 0
      let u : State := { s with hif := { s.hif with ledger := cellsWrite s.hif.ledger (256 * slot + 0xF8) (zeros 8), next := nextSeq s.hif.next } }
      (c.seq ≠ s.hif.next → exec .ledgerTake s = .next (u.respond c 1 0x09 [] none false)) ∧
      (c.seq = s.hif.next → (bitsOf commit 47 40 ≠ 1 ∨ 0 < bitsOf commit 39 32) → exec .ledgerTake s = .next (u.respond c 1 0x02 [] none false)) ∧
      (c.seq = s.hif.next → bitsOf commit 47 40 = 1 → bitsOf commit 39 32 = 0 →
        (∀ mask, bodyMask c.op (c.bits 0 1 0) = some mask → bodyStray c.body mask = true ∨ bitsOf head 31 7 ≠ 0 ∨ bitsOf commit 63 56 ≠ 0) →
        exec .ledgerTake s = .next (u.respond c 1 0x08 [] none false))) ∧
   (∀ s : State, (s.serves .alidade = false ∨ s.hif.busMaster = false ∨ s.hif.cut = true ∨ s.hif.slotWord (s.hif.next % 4096) 0xF8 = 0 ∨
     (s.hif.ringSet = false ∧ (s.hif.slotCmd (s.hif.next % 4096)).op ≠ 1)) → exec .ledgerTake s = .next s))

/-- An ECHO completes OK with its word 0: with a ring set up, its entry in turn free and nothing waiting, the completion's 64 bytes stand in that
entry, and the next entry follows round the ring. A RING_SETUP replaces ring and pool, and its own completion is the first entry of the new ring. A
retry posts the oldest held entry once the entry in turn is free; an event goes out by the event vector of the ring it is posted to (R497). A host read
that does not complete ends its command HOST_READ. -/
def Obligations.CompletionsEnterTheRing : Prop :=
  (∀ (s u : State) (c : Cmd), s.turn 0x1A = some (c, u) → exec .echo s = .next (u.complete c 0x00 [c.w 0]) ∧
     (c.noIrq = true → u.serves .alidade = true → u.hif.ringSet = true → u.hif.busMaster = true → u.hif.cut = false → u.hif.backlog = [] →
       u.hif.lostSince = 0 → u.hif.word (u.hif.base + 64 * u.hif.entry) = 0 →
       Answers .echo s fun t =>
         cellsRead t.hif.mem (u.hif.base + 64 * u.hif.entry) 64 = (u.answer c 1 0x00 [c.w 0] none false).bytes
           ∧ t.hif.entry = (u.hif.entry + 1) % 2 ^ u.hif.log ∧ t.hif.backlog = [] ∧ t.hif.taken = s.hif.taken.erase c
           ∧ { t with hif := s.hif } = s)) ∧
  (∀ (s u : State) (c : Cmd), s.turn 0x01 = some (c, u) → c.w 0 % 4096 = 0 → c.w 2 % 65536 = 0 → 6 ≤ c.bits 1 4 0 → c.bits 1 4 0 ≤ 16 →
     c.w 3 ≤ 256 → c.noIrq = true → u.hif.busMaster = true → u.hif.cut = false → u.hif.backlog = [] → u.hif.lostSince = 0 →
     u.hif.word (c.w 0) = 0 →
     Answers .ringSetup s fun t =>
       t.hif.ringSet = true ∧ t.hif.base = c.w 0 ∧ t.hif.log = c.bits 1 4 0 ∧ t.hif.vector = c.bits 1 13 8 ∧ t.hif.poolBase = c.w 2
         ∧ t.hif.poolSlots = c.w 3 ∧ t.hif.entry = 1 ∧ cellsRead t.hif.mem (c.w 0) 64 = (u.answer c 1 0x00 [] none false).bytes
         ∧ { t with hif := s.hif } = s) ∧
  ((∀ (s : State) (zeroed : List Nat) (e : Entry), s.posts = true → s.hif.lostSince = 0 → s.hif.backlog = [e] → s.hif.irqOf e = none → e.report = none →
     s.hif.ringSet = true → s.hif.busMaster = true → s.hif.cut = false →
     ({ s.hif with mem := zeroed.foldl (fun m a => cellsWrite m a (zeros 8)) s.hif.mem } : Hif).word (s.hif.base + 64 * s.hif.entry) = 0 →
     Answers (.backlogRetry zeroed) s fun t =>
       t.hif.backlog = [] ∧ t.hif.entry = (s.hif.entry + 1) % 2 ^ s.hif.log
         ∧ cellsRead t.hif.mem (s.hif.base + 64 * s.hif.entry) 64 = e.bytes ∧ { t with hif := s.hif } = s) ∧
   (∀ (h : Hif) (e : Entry), h.irqOf e = if e.word0.toNat / 2 ^ 32 % 256 = 3 then some h.vector else e.irq) ∧
   (∀ (s u : State) (p : Proc) (c : Cmd), (s.hif.taken.find? fun c => procOfOp c.op == p && c.readsHost) = some c →
     s.turn c.op = some (c, u) → exec (.hostRead p) s = .next (u.complete c 0x0D (if c.op = 0x17 then [s.dbg.level] else []))))

/-- 15 R491: a write of 1 to 256 bytes into the ledger puts its bytes there and changes nothing else. An access outside the paged window that is
neither a ledger access of an allowed size nor a naturally aligned one of 4 or 8 bytes sets BAD_ACCESS; a read of that kind returns all ones, a
write has no effect. Both hold while the host reaches the module. -/
def Obligations.HostAccessesFollowTheirSizes : Prop :=
  (∀ (s : State) (off : Nat) (d : List Byte), 1 ≤ d.length → d.length ≤ 256 → off + d.length ≤ 0x100000 → s.hostUp = true →
    Answers (.registerWrite (.bar0 off) d) s fun t => { t with hif := { t.hif with ledger := s.hif.ledger } } = s ∧
      ∀ a, cellGet 0 t.hif.ledger a = if off ≤ a ∧ a < off + d.length then (d[a - off]?).getD 0 else cellGet 0 s.hif.ledger a) ∧
  (∀ (s : State) (w : Bool) (off len : Nat), s.hostUp = true → ¬ (off + len ≤ 0x100000 ∧ (w = true → 1 ≤ len ∧ len ≤ 256)) →
    ¬ (0x1000000 ≤ off ∧ off < 0x1400000) → ¬ ((len = 4 ∨ len = 8) ∧ off % len = 0) →
    Answers (.badAccess w off len) s fun t =>
      t.hif.badAccess = true ∧ (w = false → t.out = List.replicate len 0xFF) ∧ (w = true → t.out = s.out)
        ∧ { t with hif := s.hif, out := s.out } = s ∧ { t.hif with badAccess := s.hif.badAccess } = s.hif)

/-! ## Host commands (spec/15, spec/16) -/

/-- EPOCH_CLOSE adds one to the module epoch count and sets the tree epochs to zero. Every counter of a plot that the broadcast reaches (a powered field
that is not fenced), its channels' counts too, and every counter of fields, controllers and ports is latched and starts again at zero; the module's
energy, peaks and squall time of the epoch are latched and start again; the epoch's record is written; the command completes OK with the epoch and the
EPOCH_CLOSED event follows. A plot the broadcast does not reach stays as it was. Memory, parcels, clocks and the networks stay. -/
def Obligations.EpochCloseLatchesEveryCounter : Prop :=
  ∀ (s u : State) (c : Cmd), s.turn 0x0C = some (c, u) → s.canonical = true → s.shaped = true → Answers .epochClose s fun t =>
    let n := (s.regs.epoch / 65536 + 1) % 2 ^ 48
    let e := n * 65536
    t.regs.epoch = e ∧ cellsRead t.regs.records (0x200 * (n % 16)) 0x200 = s.epochRecord e ∧
    (∃ v : State, v.hif = u.hif ∧ v.regs.epoch = e ∧ t = (v.complete c 0x00 [e]).event 0x0A [e] none) ∧
    (∀ f, (t.field f).net.lat = (s.field f).net.now ∧ (t.field f).net.latWrap = (s.field f).net.wrap
        ∧ (t.field f).net.now = (s.field f).net.now.map (fun _ => 0) ∧ (t.field f).pwr.lat = (s.field f).pwr.now
        ∧ (t.field f).pwr.now = (s.field f).pwr.now.map fun _ => 0) ∧
    (∀ d, (t.emc d).cnt.lat = (s.emc d).cnt.now ∧ (t.emc d).cnt.now = (s.emc d).cnt.now.map fun _ => 0) ∧
    (∀ p, (t.port p).cnt.lat = (s.port p).cnt.now ∧ (t.port p).cnt.now = (s.port p).cnt.now.map fun _ => 0) ∧
    (t.pwr.epochEnergy = s.pwr.energyRun ∧ t.pwr.epochPeakW = s.pwr.peakRun ∧ t.pwr.epochPeakC = s.pwr.hotRun ∧ t.pwr.epochSquall = s.pwr.squallRun
      ∧ t.pwr.energyRun = 0 ∧ t.pwr.peakRun = 0 ∧ t.pwr.hotRun = 0 ∧ t.pwr.squallRun = 0) ∧
    (∀ ph, s.selects .all ph = true → t.plot ph = (s.plot ph).latch e) ∧
    (∀ ph, s.selects .all ph = false → t.plot ph = s.plot ph) ∧
    { t with hif := s.hif, regs := s.regs, fields := s.fields, emcs := s.emcs, ports := s.ports, plots := s.plots, pwr := s.pwr } = s

/-- READ_CTRL of words that no read clears answers the words and changes nothing but the host interface; one that takes in FIELD_FIRST clears its VALID,
one that takes in WG_LOST_SRC, or a half of it, clears that field (DESIGN CHOICE, log entry 92). WRITE_CTRL of EMC_CTRL sets SCRUB_EN and nothing else; of
WG_CTRL it sets DISABLE and, but for the value 0, MIN_WIDTH, takes an ACTIVE port to RETRAIN, and one that it disables to OFF; of FENCE_CTRL or FIELD_FAULT it
clears the W1C bit and nothing else; of a target it may not write it gives BAD_COMMAND and writes nothing. A part without power makes both complete FAILED
(log entry 14). CALIBRATE notes a stack's calibration, and completes OK for an ACTIVE port, at once (log entry 50), FAILED for another (log entry 14). A fix of the clocks marks every field it names, and outside squall puts each of them that runs at its point at once, but for
the ceiling of the cap governor and a point that age withholds; the network clock takes its own. An unfix frees the fields it names; other fields stay. -/
def Obligations.ControlSpaceCommandsAndFixedClocks : Prop :=
  ((∀ (s u : State) (c : Cmd) (space i off n : Nat), s.turn 0x0F = some (c, u) → ctrlTarget c = some (space, i, off, n) →
     (let words := (List.range n).map fun k => s.ctrlWordAt space i (off + 4 * k)
      let hit := fun (a : Nat) => off ≤ a ∧ a < off + 4 * n
      (s.ctrlReach space i = false → exec .readCtrl s = .next (u.complete c 0x10 [])) ∧
      (s.ctrlReach space i = true → ¬ (space = 0 ∧ hit 0x084) → ¬ (space = 2 ∧ (hit 0x028 ∨ hit 0x02C)) →
        exec .readCtrl s = .next (u.complete c 0x00 words)) ∧
      (s.ctrlReach space i = true → space = 0 → hit 0x084 → exec .readCtrl s =
        .next ((u.setField i { s.field i with first := (s.field i).first &&& ~~~(0x200000 : W32) }).complete c 0x00 words)) ∧
      (s.ctrlReach space i = true → space = 2 → (hit 0x028 ∨ hit 0x02C) → exec .readCtrl s =
        .next ((u.setPort i { s.port i with lostSrc := 0 }).complete c 0x00 words)))) ∧
   (∀ (s u : State) (c : Cmd) (i : Nat), s.turn 0x10 = some (c, u) → ctrlTarget c = some (1, i, 0x080, 1) → (c.w 1).testBit 0 = false →
     i < s.emcs.length → s.emcUp i = true → Answers .writeCtrl s fun t =>
       t.emc i = { s.emc i with scrubEn := (c.w 1).testBit 1 } ∧ (∀ d, d ≠ i → t.emc d = s.emc d) ∧ { t with hif := s.hif, emcs := s.emcs } = s) ∧
   (∀ (s u : State) (c : Cmd) (p : Nat), s.turn 0x10 = some (c, u) → ctrlTarget c = some (2, p, 0x080, 1) → p < s.ports.length → s.portUp p = true →
     s.roleOf p ≠ 7 → (s.port p).st = .active → Answers .writeCtrl s fun t =>
       (t.port p).st = (if (c.w 1).testBit 0 then .off else if (c.w 1).testBit 1 then .retrain else .active) ∧
       (t.port p).disable = (c.w 1).testBit 0 ∧ (t.port p).minWidth = (if bitsOf (c.w 1) 3 2 = 0 then (s.port p).minWidth else bitsOf (c.w 1) 3 2) ∧
       t.plots = s.plots ∧ t.fields = s.fields) ∧
   (∀ (s u : State) (c : Cmd) (f off : Nat), s.turn 0x10 = some (c, u) → ctrlTarget c = some (0, f, off, 1) → s.powered f = true → f < s.fields.length →
     (let v := s.field f
      ∀ v', (off = 0x000 ∧ v' = { v with auto := v.auto && !(c.w 1).testBit 4 }) ∨ (off = 0x080 ∧ v' = { v with pending := v.pending && !(c.w 1).testBit 0 }) →
        exec .writeCtrl s = .next ((u.setField f v').complete c 0x00 []))) ∧
   (∀ (s u : State) (c : Cmd) (space i off n : Nat), s.turn 0x10 = some (c, u) → ctrlTarget c = some (space, i, off, n) →
     (ctrlWritable space off = false → exec .writeCtrl s = .next (u.complete c 0x08 [])) ∧
     (ctrlWritable space off = true → n = 1 → s.ctrlReach space i = false → exec .writeCtrl s = .next (u.complete c 0x10 []))) ∧
   (∀ (s u : State) (c : Cmd), s.turn 0x0E = some (c, u) → c.bits 0 5 0 < s.emcs.length → c.bits 0 5 0 < 24 → Answers .calibrate s fun t =>
       t.emc (c.bits 0 5 0) = { s.emc (c.bits 0 5 0) with calibrate := true } ∧ { t with hif := s.hif, emcs := s.emcs } = s) ∧
   (∀ (s u : State) (c : Cmd), s.turn 0x0E = some (c, u) → 32 ≤ c.bits 0 5 0 → c.bits 0 5 0 < 48 →
     exec .calibrate s = .next (u.complete c (if (s.port (c.bits 0 5 0 - 32)).st = .active then 0x00 else 0x10) []))) ∧
  ((∀ (s u : State) (c : Cmd) (f : Nat), s.turn 0x11 = some (c, u) → f < s.fields.length → Answers .fixClocks s fun t =>
     (let v := s.field f
      let pt := if v.live = true ∧ s.pwr.state ≠ .squall then max (max (c.bits 1 2 0) v.cap) (bit v.ageLimit 0) else v.point
      ((c.w 0).testBit f = true → (t.field f).fixed = true ∧ (t.field f).fixPoint = c.bits 1 2 0 ∧ (t.field f).point = pt
        ∧ { t.field f with fixed := v.fixed, fixPoint := v.fixPoint, point := v.point, vdd := v.vdd } = v) ∧
      ((c.w 0).testBit f = false → t.field f = v)) ∧
     t.pwr = { s.pwr with netFixed := true, netFix := c.bits 1 5 3, netPoint := if s.pwr.state = .squall then s.pwr.netPoint else c.bits 1 5 3 } ∧
     { t with hif := s.hif, fields := s.fields, pwr := s.pwr } = s) ∧
   (∀ (s u : State) (c : Cmd) (f : Nat), s.turn 0x12 = some (c, u) → f < s.fields.length → Answers .unfixClocks s fun t =>
     t.field f = { s.field f with fixed := (s.field f).fixed && !(c.w 0).testBit f } ∧ { t with hif := s.hif, fields := s.fields, pwr := s.pwr } = s))

/-- FW_STAGE: a bundle whose form checks and that is permitted is staged, an image under the next transaction number, fuse requests under as many as they
need from there, and completes OK with the first number (log entry 47); the boot selector, fuses and survey stay. An image staged stands in the slot not in
use, with its uncommitted entry last in both journals. While a non-volatile block holds, or a transaction is at work, the command waits (DEDUCED, log entry
110). A bundle that cannot be read completes HOST_READ, one of bad form FAILED, one not permitted NOT_PERMITTED. FW_ACTIVATE of what is not staged completes
FAILED (log entry 14); of what is, it completes DEFERRED and its transactions go to work: with nothing before them, outside squall and a non-volatile block, the
first, staged in full, is committed at once in the journal of device 0, and the boot selector is what its entry says (one step of the model, log entry 81).
SURVEY_RECOVER of a lost record: the factory record under the next recovery version is in use, its transaction, with the fuse of that recovery (a thermometer
of six bits, log entry 30), is queued, and the command completes OK. -/
def Obligations.FirmwareStagesAndActivates : Prop :=
  (∀ (s u : State) (c : Cmd) (b : List Byte), s.turn 0x13 = some (c, u) →
    (let fuses := fld b 8 4 = 1
     let permitted := if fuses then s.nv.fusesPermitted b else s.nv.firmwarePermitted b
     let count := if fuses then (s.nv.fuseTxns b).length else 1
     (b = [] → exec (.fwStage b) s = .next (u.complete c 0x0D [])) ∧
     (b ≠ [] → bundleOk b (c.bits 1 31 0) = false → exec (.fwStage b) s = .next (u.complete c 0x10 [])) ∧
     (bundleOk b (c.bits 1 31 0) = true → permitted = false → exec (.fwStage b) s = .next (u.complete c 0x0E [])) ∧
     (bundleOk b (c.bits 1 31 0) = true → permitted = true → (s.nvBlocked = true ∨ s.nv.work ≠ []) → exec (.fwStage b) s = .next s) ∧
     (bundleOk b (c.bits 1 31 0) = true → permitted = true → s.nvBlocked = false → s.nv.work = [] →
       ∃ v : State, exec (.fwStage b) s = .next (v.complete c 0x00 [s.nv.nextTxn]) ∧
       v.nv.nextTxn = s.nv.nextTxn + count ∧ v.nv.staged.map (·.num) = (List.range count).map (s.nv.nextTxn + ·) ∧ v.nv.select = s.nv.select ∧
       v.nv.fuses = s.nv.fuses ∧ v.nv.survey = s.nv.survey ∧ { v with nv := s.nv } = u ∧
       (¬ fuses → s.shaped = true → v.nv.slots[1 - s.nv.select]? = (s.nv.firmwareTxn b).image ∧
         v.nv.journals = s.nv.journals.map fun j => (j ++ [({ s.nv.firmwareTxn b with copyDev := 1 - s.nv.used } : Txn).entry s.nv]).drop (j.length + 1 - 1024))))) ∧
  ((∀ (s u : State) (c : Cmd), s.turn 0x14 = some (c, u) → (∀ x l, s.nv.staged = x :: l → x.num ≠ c.w 0) →
      exec .fwActivate s = .next (u.complete c 0x10 [])) ∧
   (∀ (s u : State) (c : Cmd) (x : Txn) (l : List Txn), s.turn 0x14 = some (c, u) → s.nv.staged = x :: l → x.num = c.w 0 → x.step = 3 → s.nv.work = [] →
      s.nv.due = none → s.nvBlocked = false → s.pwr.state ≠ .squall → Answers .fwActivate s fun t =>
        t.nv.staged = [] ∧ t.nv.work = { x with cmd := some c, step := 4 } :: l.map (fun y => { y with cmd := some c }) ∧ t.nv.select = s.nv.selected x.num ∧
        t.nv.journals = (s.nv.journals.modify 0 fun j => j.map fun e => if e.txn = x.num then { e with commit := true } else e) ∧ t.nv.fuses = s.nv.fuses ∧
        t.hif = (u.complete c 0x01 []).hif ∧ { t with hif := s.hif, nv := s.nv } = s)) ∧
  (∀ (n : Nv) (j : List JEntry) (e : JEntry) (rest : List (List JEntry)), n.journals = (j ++ [e]) :: rest → (∀ a ∈ j, a.txn ≠ e.txn) →
    n.selected e.txn = e.select) ∧
  (∀ (s u : State) (c : Cmd), s.turn 0x15 = some (c, u) →
    (s.nv.lost = false → exec .surveyRecover s = .next (u.complete c 0x08 [])) ∧
    (s.nv.lost = true →
      let n := min 6 (s.nv.recoveries + 1)
      ∃ (v : State) (x : Txn), exec .surveyRecover s = .next (v.complete c 0x00 []) ∧ v.nv.lost = false ∧ v.nv.survey.version = 2 ^ 31 + 2 ^ 24 * n ∧
        { v.nv.survey with version := Survey.factory.version, seq := Survey.factory.seq } = Survey.factory ∧
        v.nv.work = s.nv.work ++ [x] ∧ x.num = s.nv.nextTxn ∧ v.nv.nextTxn = s.nv.nextTxn + 1 ∧ x.survey = some v.nv.survey ∧ x.image = none ∧
        x.fuses = [(4, BitVec.ofNat 32 (2 ^ n - 1))] ∧ x.step = 0 ∧ { v with nv := s.nv } = u))

/-- An attestation posts a report that begins with its magic number, holds the nonce of the command at 0x20 and ends with the signature of what stands before
it by the identity key (its exponent is a free value, log entry 5). DEBUG: a level that the matrix does
not permit leaves the level; a token that is accepted sets Invasive, any other leaves the level; relock sets None and revokes the token. The TAP:
BYPASS shifts through one bit, IDCODE answers the device's code (a free value, log entry 1), SAMPLE answers the pins and preloads the cells, EXTEST
drives what is shifted in, in Standby at Invasive only, and is BYPASS else (log entry 64). The debug port: at Observe and above it reads partitions and
mailbox, but for the Compass partition; below, it reads zero; where it may act it halts, steps and writes the other processors' partitions, and marks
INVASIVE_USED; its instruction takes the place of the one in force, so that nothing drives the pins. Before step 1 of the release and in Off the pins are
high impedance and none of these does anything (17 R539). That a step leaves no known byte of a partition is the model's choice (log entry 48). -/
def Obligations.AttestationAndDebugAccess : Prop :=
  ((∀ (s u : State) (c : Cmd), s.turn 0x16 = some (c, u) → ∃ r body, exec .attest s = .next (u.respond c 1 0x00 [] (some r) false) ∧
     r = body ++ rsaSign s.nv.idModulus Config.identityExponent body ∧ r.take 8 = leBytes 8 0x3154534554415141 ∧ (r.drop 0x20).take 32 = (List.range 4).flatMap fun i => leBytes 8 (c.w i)) ∧
   (∀ (s u : State) (c : Cmd), s.turnDebug 0 = some (c, u) → Answers .debugSetLevel s fun t =>
     t.dbg.level = (if s.levelPermitted (c.bits 0 3 2) then c.bits 0 3 2 else s.dbg.level) ∧ { t with hif := s.hif, dbg := s.dbg } = s
       ∧ { t.dbg with level := s.dbg.level } = s.dbg) ∧
   (∀ (s u : State) (c : Cmd) (b : List Byte), s.turnDebug 1 = some (c, u) → c.w 1 % 64 = 0 → b ≠ [] → Answers (.debugPresentToken b) s fun t =>
     t.dbg.level = (if s.tokenOk b then 2 else s.dbg.level) ∧ t.dbg.tokenValid = (s.tokenOk b || s.dbg.tokenValid)
       ∧ { t with hif := s.hif, dbg := s.dbg, freeCtr := s.freeCtr } = s) ∧
   (∀ (s u : State) (c : Cmd), s.turnDebug 2 = some (c, u) → Answers .debugRelock s fun t =>
     t.dbg.level = 0 ∧ t.dbg.tokenValid = false ∧ { t with hif := s.hif, dbg := s.dbg, freeCtr := s.freeCtr } = s)) ∧
  ((∀ (s : State) (l pins : List Bool), s.tapUp = true →
     (let byp := { s with dbg := { s.dbg with tap := Tap.bypass, driven := none }, out := ((false :: l).take l.length).map fun b => if b then 1 else 0 }
      exec (.jtagBypass l) s = .next byp ∧
      exec .jtagIdcode s = .next { s with dbg := { s.dbg with tap := Tap.idcode, driven := none }, out := leBytes 4 Config.idcode.toNat } ∧
      exec (.jtagSamplePreload pins l) s = .next { s with dbg := { s.dbg with tap := Tap.sample, driven := none, cells := l },
                                                          out := pins.map fun b => if b then 1 else 0 } ∧
      ((s.pwr.state ≠ .standby ∨ s.invasive = false) → exec (.jtagExtest l) s = .next byp) ∧
      (s.pwr.state = .standby → s.invasive = true → Answers (.jtagExtest l) s fun t => t.dbg.tap = .extest ∧ t.dbg.cells = l ∧ t.dbg.driven = some l ∧
        t.dbg.invasiveUsed = true ∧ t.out.length = l.length ∧ t.freeCtr = s.freeCtr + l.length ∧ t.pwr = s.pwr ∧ t.plots = s.plots))) ∧
   (∀ (s : State) (g : DebugRegion) (a n : Nat), s.tapUp = true → a + n ≤ regionRoom g →
     ((s.dbg.level = 0 ∨ g = .partition .compass) → exec (.debugPortRead g a n) s = .next { s.tapTo .chartroom with out := List.replicate n 0 }) ∧
     (s.dbg.level ≠ 0 → g ≠ .partition .compass → Answers (.debugPortRead g a n) s fun t => t.out.length = n ∧
       { t with out := s.out, freeCtr := s.freeCtr } = s.tapTo .chartroom ∧ ∀ i b, i < n → listGet (s.regionCells g) (a + i) = some b → t.out[i]? = some b)) ∧
   (∀ (s : State) (p : Proc) (g : DebugRegion) (a n : Nat) (x : W64) (l pins : List Bool), (s.pwr.state = .off ∨ s.clk.step = 0) →
     ∀ c ∈ [Instr.jtagBypass l, .jtagIdcode, .jtagSamplePreload pins l, .jtagExtest l, .debugPortRead g a n, .debugPortHalt p, .debugPortStep p,
       .debugPortWrite p a n x], exec c s = .next s) ∧
   (∀ (s : State), (s.tapTo .chartroom).dbg.driven = none ∧ (s.tapTo .chartroom).driving = none ∧ (s.tapTo .chartroom).dbg.tap = .chartroom) ∧
   (∀ (s : State) (p : Proc) (a n : Nat) (x : W64), procIndex p < s.procs.length → s.tapUp = true →
     (s.debugActs p = false → ∀ c ∈ [Instr.debugPortHalt p, .debugPortStep p, .debugPortWrite p a n x], exec c s = .next (s.tapTo .chartroom)) ∧
     (s.debugActs p = true → (s.proc p).up = true → Answers (.debugPortHalt p) s fun t => (t.proc p).halted = true ∧ t.serves p = false ∧
       t.dbg.invasiveUsed = true ∧ (∀ q, q ≠ p → t.proc q = s.proc q) ∧ t.plots = s.plots) ∧
     (s.debugActs p = true → (s.proc p).halted = true → Answers (.debugPortStep p) s fun t => t.proc p = { s.proc p with partition := [] } ∧
       t.dbg.invasiveUsed = true ∧ (∀ q, q ≠ p → t.proc q = s.proc q) ∧ t.plots = s.plots) ∧
     (s.debugActs p = true → n ≤ 8 → a + n ≤ 0x1000000 → Answers (.debugPortWrite p a n x) s fun t => t.dbg.invasiveUsed = true ∧ t.plots = s.plots ∧
       ∀ k, listGet (t.proc p).partition k = if a ≤ k ∧ k < a + n then some (BitVec.ofNat 8 (x.toNat >>> (8 * (k - a)))) else
         listGet (s.proc p).partition k)))

/-- EDGE_IMPORT writes the data that the gateway sent at its edge address, granule by granule, here with no stack retired and no request waiting at a
controller; EDGE_EXPORT sends what it reads there on the port's stream; both complete OK, and Idle ends. Where the range, port or stream does not allow it, both
complete FAILED (log entries 14 and 83) and change nothing else; so does an import with less data than it names (DESIGN CHOICE, log entry 49). -/
def Obligations.EdgeMemoryMovesByGateway : Prop :=
  (∀ (s u : State) (c : Cmd) (d : Data), s.turn 0x19 = some (c, u) → s.edgeMoveOk c false = true → c.w 1 ≤ d.length →
    (∀ k, (s.emc k).retired = false ∧ (s.emc k).pool = []) → ∃ v : State, exec (.edgeImport d) s = .next (v.complete c 0x00 []) ∧
      v.edge = (edgePieces (c.w 1 / 4096 + 2) (c.w 0) (d.take (c.w 1))).foldl (fun m ad => (m.write ad.1 ad.2).mem) s.edge ∧
      { v with edge := s.edge, emcs := s.emcs, pwr := s.pwr } = u ∧ v.pwr = if c.w 1 = 0 then s.pwr else u.wake.pwr) ∧
  (∀ (s u v : State) (c : Cmd) (d : Data), s.turn 0x18 = some (c, u) → s.edgeMoveOk c true = true →
    u.rootRead (c.w 0) (c.w 1) (c.w 1 / 4096 + 2) = (v, d) →
    exec .edgeExport s = .next ((v.sendStream (c.bits 2 3 0) (c.bits 2 27 16) d (c.w 1 / 4096 + 1)).complete c 0x00 [])) ∧
  (∀ (s : State), s.wake.pwr = (if s.pwr.state = .idle then { s.pwr with state := .active, waking := true } else s.pwr) ∧
    { s.wake with pwr := s.pwr } = s) ∧
  (∀ (s u : State) (c : Cmd) (d : Data), (s.turn 0x19 = some (c, u) → (s.edgeMoveOk c false = false ∨ d.length < c.w 1) → exec (.edgeImport d) s = .next (u.complete c 0x10 [])) ∧
    (s.turn 0x18 = some (c, u) → s.edgeMoveOk c true = false → exec .edgeExport s = .next (u.complete c 0x10 [])))

/-- TEST of one plot, named by physical position. A plot of no parcel and in no other test: when idle it enters TEST and the command waits; the result
ends it: one that passes is IDLE with its block and counts as passed; one that fails is dead and fenced and counts as failed (DONE set by every test, and
passed before failed in the answer: log entry 45). A loaded plot, or one
in another test, is queued and the command is DEFERRED; with 1,024 plots queued and this one not among them it completes QUEUE_FULL. A queued test begins when the
plot is idle and of no parcel; its result gives the second completion of a command that waits for nothing else. A patrol test puts an idle plot in TEST; a failing
result, of the plot or of a neighbour in IDLE or TEST (log entry 56), makes it suspect and leaves it in TEST (DEDUCED, log entry 103); a passing one leaves it
IDLE, and 144 passes in succession end a survey. A suspect of no parcel that may be rerun: it and the nearest idle margin plot of its field row enter TEST with the
suspect's record and sheet, two runs on it and one on the margin plot leave their signatures (what the runs start from is log entry 71); without a margin plot it
waits (log entry 56). The verdict marks the suspect dead when it is under survey, disagrees with itself, fails its tests or
agrees with no run; puts it under survey when it agrees with the margin plot; suspects that margin plot when it agrees with a second one only; and, undecided, runs
once on a second margin plot, then in TEST too. What hardware errors do to a run's signature is an operand (log entry 9). -/
def Obligations.TestsAndRerunsJudgePlots : Prop :=
  ((∀ (s u : State) (c : Cmd) (x y : Nat), s.turn 0x0D = some (c, u) → c.w 1 = 1 → x < 1248 → y < 768 →
     c.w 0 = x + y * 2 ^ 11 + x * 2 ^ 32 + y * 2 ^ 43 → s.alive (1248 * y + x) = true →
     (let ph := 1248 * y + x
      (s.testsItself ph = true → (s.plot ph).st ≠ .test → s.queuedTests.length ≤ 1024 → ∀ res, Answers (.test res) s fun t => (t.plot ph).st = .test ∧
        t.svc.testing = s.svc.testing ++ [(ph, false)] ∧ (∀ q, q ≠ ph → t.plot q = s.plot q) ∧ t.hif = s.hif ∧ t.edge = s.edge) ∧
      (∀ r : PlotTest, s.testsItself ph = true → (s.plot ph).st = .test → s.queuedTests.length ≤ 1024 → r.phys = ph →
        (r.selfFail = false → ∃ v : State, exec (.test (some [r])) s = .next (v.complete c 0x00 [1, 0]) ∧ v.hif = u.hif ∧ (v.plot ph).st = .idle ∧
          (v.plot ph).test.done = true ∧ (v.plot ph).test.selfFail = false ∧ (v.plot ph).test.nbFail = r.nbFail ∧ (v.plot ph).test.links = r.links ∧
          (v.plot ph).test.sig = r.sig ∧ (∀ q, q ≠ ph → v.plot q = s.plot q) ∧ v.nv = s.nv ∧ v.edge = s.edge) ∧
        (r.selfFail = true → ∃ v : State, exec (.test (some [r])) s = .next (v.complete c 0x00 [0, 1]) ∧ v.isDead ph = true ∧ (v.plot ph).fence = true ∧
          (v.plot ph).st = .fenced ∧ v.nv.survey.version = s.nv.survey.version + 1)) ∧
      (∀ res, s.testsItself ph = false →
        (s.queuedTests.length < 1024 → ∃ v : State, exec (.test res) s = .next (v.complete c 0x01 []) ∧ { v with svc := s.svc } = u ∧
          v.svc = { s.svc with tests := s.svc.tests ++ [(ph, c)], counts := s.svc.counts ++ [(c, 0, 0)] }) ∧
        (s.queuedTests.length = 1024 → (s.plot ph).st ≠ .test → s.queuedTests.contains ph = false →
          exec (.test res) s = .next (u.complete c 0x06 []))))) ∧
  ((∀ (s : State) (ph : Nat), (s.svc.tests.any fun t => t.1 == ph) = true → s.serves .theodolite = true → (s.plot ph).parcel = 0 → (s.plot ph).st = .idle →
     s.alive ph = true → Answers (.queuedTestRun ⟨ph, none⟩) s fun t => (t.plot ph).st = .test ∧ t.svc.testing = s.svc.testing ++ [(ph, false)] ∧
       (∀ q, q ≠ ph → t.plot q = s.plot q) ∧ t.hif = s.hif) ∧
   (∀ (s : State) (r : PlotTest) (ph : Nat) (c : Cmd) (a b : Nat), s.svc.tests = [(ph, c)] → s.svc.counts = [(c, a, b)] → s.serves .theodolite = true →
     s.inTest ph false = true → r.selfFail = false → ∃ v : State, exec (.queuedTestRun ⟨ph, some r⟩) s = .next (v.second c 0x00 [a + 1, b]) ∧
       v.hif = s.hif ∧ v.svc.tests = [] ∧ v.svc.counts = [] ∧ (v.plot ph).st = .idle ∧ (v.plot ph).test.done = true ∧ (v.plot ph).test.sig = r.sig ∧
       (∀ q, q ≠ ph → v.plot q = s.plot q))) ∧
  ((∀ (s : State) (ph : Nat), physOk ph = true → s.serves .theodolite = true → s.alive ph = true → (s.plot ph).st = .idle → (s.plot ph).parcel = 0 →
     Answers (.patrolTest ⟨ph, none⟩) s fun t => (t.plot ph).st = .test ∧ t.svc.testing = s.svc.testing ++ [(ph, true)] ∧ (∀ q, q ≠ ph → t.plot q = s.plot q)) ∧
   (∀ (s : State) (ph : Nat) (x : PlotTest), physOk ph = true → s.serves .theodolite = true → s.inTest ph true = true →
     (let n := (listGet s.svc.passes ph).getD 0
      let pass := x.selfFail = false ∧ s.patrolSides ph x.nbFail = 0
      (¬ pass → Answers (.patrolTest ⟨ph, some x⟩) s fun t => (∃ v ∈ t.svc.suspects, v.phys = ph) ∧ (t.plot ph).st = .test ∧
        (∀ e ∈ t.svc.testing, e.1 ≠ ph) ∧ (t.plot ph).test.done = true ∧
        (t.plot ph).test.selfFail = x.selfFail ∧ (t.plot ph).test.nbFail = s.patrolSides ph x.nbFail) ∧
      (pass → Answers (.patrolTest ⟨ph, some x⟩) s fun t => (t.plot ph).st = .idle ∧ (t.plot ph).test.done = true ∧ (t.plot ph).test.sig = x.sig ∧
        t.svc.suspects = s.svc.suspects ∧ (t.plot ph).underSurvey = ((s.plot ph).underSurvey && decide (n + 1 < 144)) ∧
        ((s.plot ph).underSurvey = true → n + 1 < 144 → listGet t.svc.passes ph = some (n + 1))))))) ∧
  ((∀ (s : State) (ph : Nat) (e : RunErrors) (u : Suspect), (s.svc.suspects.find? fun v => v.phys == ph && v.margin.isNone) = some u →
     s.serves .theodolite = true → s.canRerun ph = true →
     (s.marginFor ph = none → exec (.rerun ⟨ph, e⟩) s = .next s) ∧
     (∀ m, s.marginFor ph = some m →
       (let p := (s.plot ph).takeRerun u
        let q := (s.plot m).takeRerun u
        Answers (.rerun ⟨ph, e⟩) s fun t => (t.plot ph).st = .test ∧ (t.plot m).st = .test ∧ (t.plot ph).test.sig = p.testSig e.suspect2 ∧
          (t.plot m).test.sig = q.testSig e.margin ∧ (∀ k, k ≠ ph → k ≠ m → t.plot k = s.plot k) ∧ t.stratus = s.stratus ∧ t.nimbus = s.nimbus ∧
          t.svc = { s.svc with suspects := s.svc.suspects.map fun v => if v.phys == ph then
            { u with margin := some m, sigs := [p.testSig e.suspect1, p.testSig e.suspect2, q.testSig e.margin] } else v }))) ∧
  (∀ (s : State) (ph m : Nat) (ok : Bool) (e a b c : W32) (u : Suspect), (s.svc.suspects.find? fun v => v.phys == ph) = some u → u.margin = some m → m ≠ ph →
     u.sigs = [a, b, c] → s.serves .theodolite = true → (s.plot ph).st = .test →
     (let bad := a ≠ b ∨ ok = false ∨ (s.plot ph).underSurvey = true
      ((bad ∨ (a ≠ c ∧ ∃ z, u.second = some z ∧ a ≠ z.2)) → Answers (.rerunVerdict ph ⟨ok, e⟩) s fun t => t.isDead ph = true ∧
        (t.plot ph).fence = true ∧ t.nv.survey.version = s.nv.survey.version + 1 ∧ ∀ v ∈ t.svc.suspects, v.phys ≠ ph) ∧
      (¬ bad → a = c → Answers (.rerunVerdict ph ⟨ok, e⟩) s fun t => (t.plot ph).st = .idle ∧ (t.plot ph).underSurvey = true ∧
        (∀ v ∈ t.svc.suspects, v.phys ≠ ph) ∧ t.nv.survey.version = s.nv.survey.version) ∧
      (∀ z, ¬ bad → a ≠ c → u.second = some z → a = z.2 → Answers (.rerunVerdict ph ⟨ok, e⟩) s fun t => (t.plot ph).st = .idle ∧
        (∃ v ∈ t.svc.suspects, v.phys = m) ∧ ∀ v ∈ t.svc.suspects, v.phys ≠ ph) ∧
      (∀ n, ¬ bad → a ≠ c → u.second = none → s.marginFor ph = some n → Answers (.rerunVerdict ph ⟨ok, e⟩) s fun t => (t.plot n).st = .test ∧
        (t.plot n).test.sig = ((s.plot n).takeRerun u).testSig e ∧ (∀ k, k ≠ n → t.plot k = s.plot k) ∧
        t.svc = { s.svc with suspects := s.svc.suspects.map fun v => if v.phys == ph then
          { u with second := some (n, ((s.plot n).takeRerun u).testSig e) } else v }))))

/-! ## Parcels, watchdog, drains (spec/05, spec/10) -/

/-- LOAD of an atlas that the checks refuse answers REFUSED with the code and place, and loads nothing; so does one without images where a plot keeps no
memory of this atlas (code 16, of the first such entry: DEDUCED, log entry 27), before any reach is repaired, and one with a plot that is not available once its
reaches are reprojected (code 5). One they accept: the parcel is loaded under the number of the held parcel that it takes over, else the lowest free one (DESIGN
CHOICE, log entry 18; with none it completes FAILED, log entry 14); every plot of it is LOADED in that parcel with its gate closed, every other plot and edge
memory stay; the command completes OK with the number, and, with no image to come, a second time. Patrol tests on its plots are abandoned first. The steps of a
load are one event of the model (DESIGN CHOICE, log entry 102). -/
def Obligations.LoadPlacesEveryPlot : Prop :=
  ∀ (s u : State) (c : Cmd) (b : List Byte), s.turn 0x02 = some (c, u) → s.clk.ready = true → c.w 0 % 64 = 0 → b ≠ [] →
    let noImages := c.flag 1 48
    let repro := c.flag 1 49
    let forRestore := c.flag 1 50
    let u0 := match Atlas.read b (c.bits 1 31 0) with
      | .ok a => u.abandonPatrol (u.concerned a)
      | .error _ => u
    let check := u0.checkAtlas b (c.bits 1 31 0) ⟨c.bits 1 43 32, repro, none, noImages || forRestore⟩
    (∀ r, check = .error r → exec (.load b) s = .next (u0.complete c 0x07 [refusalWord r])) ∧
    (∀ a, check = .ok a →
      (let v := if repro then (u0.reproject (u0.voidReaches a)).1 else u0
       let out := (a.ents 2).find? fun e => (entRect e.2).plots.any (v.unavailable 0 false)
       let lost := (a.ents 2).find? fun e => (entRect e.2).plots.any fun q =>
         !((u0.plot (u0.phys q.x q.y)).kept && (u0.plot (u0.phys q.x q.y)).keptDigest == a.digest)
       let held := if noImages || forRestore then s.held.find? fun h => h.digest == a.digest else none
       let segs := if noImages || forRestore then [] else a.segs
       ((held.map (·.num)).or s.freeNumber = none → exec (.load b) s = .next (u0.complete c 0x10 [])) ∧
       (∀ num, (held.map (·.num)).or s.freeNumber = some num →
         (∀ e, noImages = true → forRestore = false → lost = some e → exec (.load b) s = .next (u0.complete c 0x07 [refusalWord (16, e.1.1, e.1.2)])) ∧
         (∀ e, (noImages = true → forRestore = false → lost = none) → out = some e →
           exec (.load b) s = .next (v.complete c 0x07 [refusalWord (5, e.1.1, e.1.2)])) ∧
         ((noImages = true → forRestore = false → lost = none) → out = none → ∃ w : State,
           (let done := w.complete c 0x00 [num + v.nv.survey.version % 2 ^ 32 * 2 ^ 8 + v.portsDown a.bindings * 2 ^ 40]
            exec (.load b) s = .next (if segs.isEmpty then done.second c 0x00 [] else done)) ∧ w.hif = u.hif ∧
           w.parcels.map (·.num) = s.parcels.map (·.num) ++ [num] ∧
           (w.parcels.getLast?.map fun p => (p.phase, p.digest, p.ran, p.imagesDone)) = some (.loaded, a.digest, false, segs.isEmpty) ∧
           (∀ q ∈ a.plots, (w.plot (v.phys q.x q.y)).st = .loaded ∧ (w.plot (v.phys q.x q.y)).parcel = num ∧ (w.plot (v.phys q.x q.y)).gate = false) ∧
           (∀ ph, (∀ q ∈ a.plots, v.phys q.x q.y ≠ ph) → w.plot ph = v.plot ph) ∧ w.edge = s.edge))))

/-- RUN of a loaded parcel that has no fault and REOPEN of one drained by quiescence, never otherwise, with no faulted plot, open the parcel's gates: its
phase is running, Idle ends and the command completes OK; a RUN while images are pending completes IMAGES_PENDING; any other state of the parcel gives FAILED
(log entry 14). At one plot
the gate opens: a LOADED plot goes to RUNNING, or to QUIESCENT when its restored record had ended, or faults when its sheet breaks a rule. RELEASE of a
parcel none of whose plots runs or drains takes it away: its plots belong to none; without a drain under way they are IDLE (a fenced one stays FENCED) and
keep their memory, and edge memory stays; a drain whose report is still to come ends first (DEDUCED, log entry 86), and where that report waits for
Theodolite, so does the release. One with a plot that runs or drains completes PARCEL_RUNNING. RELEASE of a parcel that is only held ends the hold of its
trees, or completes NO_PARCEL when it asks to keep them (DEDUCED, log entry 111). -/
def Obligations.ParcelsOpenAndAreReleased : Prop :=
  ((∀ (s u : State) (c : Cmd) (p : Parcel), s.turn 0x03 = some (c, u) → s.clk.ready = true → s.parcel (c.bits 0 7 0) = some p →
     (p.imagesDone = false → exec .run s = .next (u.complete c 0x04 [])) ∧
     (p.imagesDone = true → p.phase = .loaded → p.fault = none → exec .run s = .next ((u.openParcel p).complete c 0x00 [])
       ∧ ((u.openParcel p).parcel p.num).map (fun q => (q.phase, q.ran)) = some (.running, true) ∧ (u.openParcel p).pwr = u.wake.pwr) ∧
     (p.imagesDone = true → (p.phase ≠ .loaded ∨ p.fault.isSome = true) → exec .run s = .next (u.complete c 0x10 []))) ∧
   (∀ (s u : State) (c : Cmd) (p : Parcel), s.turn 0x06 = some (c, u) → s.parcel (c.bits 0 7 0) = some p →
     (let may := p.phase = .drained ∧ p.lastOutcome = some 0 ∧ p.fault = none ∧ p.spent = false ∧ s.countFaulted p = 0
      (may → exec .reopen s = .next ((u.openParcel p).complete c 0x00 [])
        ∧ ((u.openParcel p).parcel p.num).map (·.phase) = some .running) ∧
      (¬ may → exec .reopen s = .next (u.complete c 0x10 [])))) ∧
   (∀ r : Run, r.openGate.p.gate = true) ∧
   (∀ r : Run, r.p.st = .loaded → r.openGate.p.st = if r.p.restoredEnded then .quiescent else if sheetBad r.p.seq.cache r.p.seq.cur then .faulted else .running)) ∧
  ((∀ (s u : State) (c : Cmd) (p : Parcel), s.turn 0x04 = some (c, u) → s.parcel (c.bits 0 7 0) = some p →
     (let busy := ∃ qp ∈ s.parcelPlots p, qp.2.st = .running ∨ qp.2.st = .draining
      (busy → exec .release s = .next (u.complete c 0x05 [])) ∧
      (∀ d, ¬ busy → p.drain = some d → s.endWaits p d = true → exec .release s = .next s) ∧
      (¬ busy → (∀ d, p.drain = some d → s.endWaits p d = false) → Answers .release s fun t => t.parcel p.num = none ∧ ∀ q ∈ p.plots, (t.plot (s.phys q.x q.y)).parcel = 0) ∧
      (¬ busy → p.drain = none → ∃ v : State, exec .release s = .next (v.complete c 0x00 []) ∧ v.edge = s.edge ∧ v.nv = s.nv ∧
        ∀ q ∈ p.plots, (v.plot (s.phys q.x q.y)).kept = c.flag 0 8 ∧ (v.plot (s.phys q.x q.y)).mem = (s.plot (s.phys q.x q.y)).mem
          ∧ (v.plot (s.phys q.x q.y)).st = if (s.plot (s.phys q.x q.y)).st = .fenced then .fenced else .idle))) ∧
   (∀ (s u : State) (c : Cmd) (h : Held), s.turn 0x04 = some (c, u) → s.parcel (c.bits 0 7 0) = none →
     (s.held.find? fun g => g.num == c.bits 0 7 0) = some h →
     (c.flag 0 9 = true → exec .release s = .next (u.complete c 0x0A [])) ∧
     (c.flag 0 9 = false → ∃ v : State, exec .release s = .next (v.complete c 0x00 []) ∧ v.held = (s.held.filter fun g => g.num != c.bits 0 7 0)
       ∧ v.parcels = s.parcels ∧ v.edge = s.edge ∧ v.nv = s.nv)))

/-- DRAIN closes the gates of every plot of the parcel that works, and puts each RUNNING one in DRAINING; the drain is the command's until it
reports; of a parcel that has never run it is decided, by quiescence, at once. A second order completes BUSY, a scan to an address that is not a multiple of
4,096 BAD_COMMAND (DEDUCED, log entry 17), one that would leave edge memory FAILED (DEDUCED, log entry 83). FAULT_AREA notes where a fault drain scans to; an
area that is not aligned or begins outside edge memory completes BAD_COMMAND (log entry 17), one that ends outside it FAILED (log entry 83). -/
def Obligations.DrainClosesTheGates : Prop :=
  (∀ (s u : State) (c : Cmd) (p : Parcel), s.turn 0x05 = some (c, u) → s.parcel (c.bits 0 7 0) = some p →
    (let out := rootBad (c.w 1) (p.plots.length * recordSize (c.flag 0 9))
     (p.drain.isSome = true → exec .drain s = .next (u.complete c 0x0F [])) ∧
     (p.drain = none → c.flag 0 8 = true → c.w 1 % 4096 ≠ 0 → exec .drain s = .next (u.complete c 0x08 [])) ∧
     (p.drain = none → c.flag 0 8 = true → c.w 1 % 4096 = 0 → out = true → exec .drain s = .next (u.complete c 0x10 [])) ∧
     (p.drain = none → (c.flag 0 8 = true → c.w 1 % 4096 = 0 ∧ out = false) → Answers .drain s fun t =>
       (t.parcel p.num).map (·.phase) = some .draining ∧
       ((t.parcel p.num).bind (·.drain)).map (fun d => (d.kind, d.scan, d.withMemory, d.dest, d.cmd, d.outcome))
         = some (0, c.flag 0 8, c.flag 0 9, c.w 1, some c, if p.ran then none else some 0) ∧ t.edge = s.edge ∧
       (p.ran = true → ∀ q ∈ p.plots, onGrid q.x q.y = true → s.alive (s.phys q.x q.y) = true →
         (t.plot (s.phys q.x q.y)).gate = false ∧ (t.plot (s.phys q.x q.y)).mem = (s.plot (s.phys q.x q.y)).mem
           ∧ (t.plot (s.phys q.x q.y)).st = if (s.plot (s.phys q.x q.y)).st = .running then .draining else (s.plot (s.phys q.x q.y)).st)))) ∧
  (∀ (s u : State) (c : Cmd) (p : Parcel), s.turn 0x0B = some (c, u) → s.parcel (c.bits 0 7 0) = some p →
    (let off := c.w 1 % 4096 ≠ 0 ∨ edgePresent (c.w 1) = false
     (off → exec .faultArea s = .next (u.complete c 0x08 [])) ∧
     (¬ off → rootBad (c.w 1) (c.w 2) = true → exec .faultArea s = .next (u.complete c 0x10 [])) ∧
     (¬ off → rootBad (c.w 1) (c.w 2) = false →
       exec .faultArea s = .next ((u.setParcel { p with faultArea := some (c.w 1, c.w 2) }).complete c 0x00 [])
         ∧ (u.setParcel { p with faultArea := some (c.w 1, c.w 2) }).parcel p.num = some { p with faultArea := some (c.w 1, c.w 2) })))

/-- RESTORE gives every plot of a loaded parcel that has not run its record, in the order of the plot list: a plot that refuses changes nothing of
its own, one that takes it is what the record says; the command answers OK, how many took theirs and the first that refused (OK with a refused record, and
the record size taken from the first record: DEDUCED, log entry 15). For a parcel that has run or faulted, or records that would leave edge memory, it completes
FAILED (log entries 14 and 83). -/
def Obligations.RestoreTakesOrRefusesRecords : Prop :=
  (∀ (s u : State) (c : Cmd) (p : Parcel), s.turn 0x07 = some (c, u) → s.parcel (c.bits 0 7 0) = some p →
    (let may := p.phase = .loaded ∧ p.ran = false ∧ p.fault = none ∧ rootBad (c.w 1) (p.plots.length * recordSize false) = false
     (¬ may → exec .restore s = .next (u.complete c 0x10 [])) ∧
     (∀ (v : State) (h : Data), may → u.rootRead (c.w 1) 16 2 = (v, h) →
       (let withMemory := (leNat ((h.map (·.1)).drop 8)).testBit 2
        (rootBad (c.w 1) (p.plots.length * recordSize withMemory) = true → exec .restore s = .next (v.complete c 0x10 [])) ∧
        (∀ (t : State) (done : Nat) (bad : Option (XY × Nat)), rootBad (c.w 1) (p.plots.length * recordSize withMemory) = false →
          v.restoreGo p (c.w 1) (recordSize withMemory) 0 none p.plots = (t, done, bad) →
          exec .restore s = .next (t.complete c 0x00 [done, match bad with
            | none => 0
            | some (q, n) => t.plotAddr q.x q.y + n])))))) ∧
  (∀ (s : State) (p : Parcel) (q : XY) (rec : List Byte),
    match (s.plot (s.phys q.x q.y)).refusesRecord (s.view (s.phys q.x q.y)) p.digest rec with
    | some n => s.restorePlot p q rec = (s, some n)
    | none => (s.restorePlot p q rec).2 = none
        ∧ (s.restorePlot p q rec).1.plot (s.phys q.x q.y) = ((s.plot (s.phys q.x q.y)).restore rec).atEpoch (s.epochAt (s.phys q.x q.y))
        ∧ ∀ ph, ph ≠ s.phys q.x q.y → (s.restorePlot p q rec).1.plot ph = s.plot ph)

/-- SWAP of a running parcel with no fault, drain or staged swap: where the checks refuse the atlas it completes REFUSED with the refusal; where they accept
it the swap is staged with its atlas, tree base and segments, every plot of the parcel that works notes it, and the command completes OK. In any other
state it completes REFUSED with code 16 and no entry (DESIGN CHOICE, log entry 16). SWAP_CANCEL drops a staged swap: the SWAP's second completion is
SWAP_REFUSED, the cancel's OK; with none staged it completes FAILED (log entry 14). After PARCEL_ENDED, with every segment passed: an uncommitted end drops the swap with SWAP_REFUSED; a plot that does not work fails it with
SWAP_FAILED; else every plot of the new atlas is LOADED in the parcel, which has the new digest and no swap, is running where the swap opens the gates and loaded
where not, and the SWAP's second completion is OK. Before its end, or with a segment to come, nothing happens. IMAGES_DONE gives a load's second completion once every
segment has passed, not before. -/
def Obligations.SwapsStageCancelAndTake : Prop :=
  (∀ (s u : State) (c : Cmd) (p : Parcel) (b : List Byte), s.turn 0x08 = some (c, u) → s.clk.ready = true → s.parcel (c.bits 0 7 0) = some p →
    c.w 1 % 64 = 0 → b ≠ [] →
    (let may := p.phase = .running ∧ p.swap = none ∧ p.fault = none ∧ p.drain = none
     let check := u.checkAtlas b (c.bits 2 31 0) ⟨c.bits 2 43 32, false, some p, false⟩
     (¬ may → exec (.swap b) s = .next (u.complete c 0x07 [refusalWord (16, 63, 0)])) ∧
     (∀ r, may → check = .error r → exec (.swap b) s = .next (u.complete c 0x07 [refusalWord r])) ∧
     (∀ a, may → check = .ok a → ∃ v : State, exec (.swap b) s = .next (v.complete c 0x00 []) ∧
        v.parcel p.num = some { p with swap := some { atlas := b, base := c.bits 2 43 32, opens := c.flag 0 8, cmd := c, segs := a.segs } } ∧
        (∀ q ∈ p.plots, onGrid q.x q.y = true → s.alive (s.phys q.x q.y) = true → (v.plot (s.phys q.x q.y)).swapStaged = true) ∧
        (∀ ph, { v.plot ph with swapStaged := (s.plot ph).swapStaged } = s.plot ph) ∧ { v with parcels := s.parcels, plots := s.plots } = u))) ∧
  (∀ (s u : State) (c : Cmd) (p : Parcel), s.turn 0x09 = some (c, u) → s.parcel (c.bits 0 7 0) = some p →
    (p.swap = none → exec .swapCancel s = .next (u.complete c 0x10 [])) ∧
    (∀ w, p.swap = some w → exec .swapCancel s = .next (((u.dropSwap p).second w.cmd 0x0B []).complete c 0x00 []) ∧
      (u.dropSwap p).parcel p.num = some { p with swap := none } ∧ ∀ q ∈ p.plots, ((u.dropSwap p).plot (s.phys q.x q.y)).swapStaged = false)) ∧
  (∀ (s : State) (p : Parcel) (w : Swap) (a : Atlas), s.parcel p.num = some p → p.swap = some w → Atlas.read w.atlas w.atlas.length = .ok a →
    ((p.endPosted = false ∨ (p.uncommitted = false ∧ (w.segs.all (·.passed)) = false)) → exec (.swapTake p.num) s = .next s) ∧
    (p.endPosted = true → p.uncommitted = true → exec (.swapTake p.num) s = .next ((s.dropSwap p).second w.cmd 0x0B [])) ∧
    (p.endPosted = true → p.uncommitted = false → (w.segs.all (·.passed)) = true →
      (∀ q, (p.plots.find? fun q => !s.alive (s.phys q.x q.y)) = some q →
        exec (.swapTake p.num) s = .next (((s.dropSwap p).faultParcelAt 2 q.x q.y).second w.cmd 0x0C [])) ∧
      ((p.plots.all fun q => s.alive (s.phys q.x q.y)) = true → ∃ v : State, exec (.swapTake p.num) s = .next (v.second w.cmd 0x00 []) ∧
        (v.parcel p.num).map (fun q => (q.digest, q.phase, q.ran)) = some (a.digest, if w.opens then .running else .loaded, w.opens) ∧
        (w.opens = false → (v.parcel p.num).map (·.swap) = some none ∧
          ∀ q ∈ a.plots, (v.plot (s.phys q.x q.y)).st = .loaded ∧ (v.plot (s.phys q.x q.y)).parcel = p.num)))) ∧
  (∀ (s : State) (p : Parcel) (c : Cmd), s.parcel p.num = some p → p.loadCmd = some c →
    ((p.segs.all (·.passed)) = false → exec (.imagesDone p.num) s = .next s) ∧
    ((p.segs.all (·.passed)) = true → exec (.imagesDone p.num) s = .next ((s.setParcel { p with imagesDone := true, loadCmd := none }).second c 0x00 []) ∧
      (s.setParcel { p with imagesDone := true, loadCmd := none }).parcel p.num = some { p with imagesDone := true, loadCmd := none }))

/-- REPROJECT, after patrol tests on its plots are abandoned: the answer counts the reaches changed and skipped and gives the gazetteer version, which grows by
one when any reach changed; a reach that a loaded parcel touches keeps its projection, and the status is DEFERRED, with the same words, when one that no parcel
touches was skipped for a plot in TEST (DEDUCED, log entry 85). -/
def Obligations.ReprojectKeepsLoadedReaches : Prop :=
  ∀ (s u v : State) (c : Cmd) (changed skipped : Nat), s.turn 0x0A = some (c, u) → s.clk.ready = true → rectOk (c.w 0) = true →
    (let rs := (rectOf (c.w 0)).reaches
     let u0 := u.abandonPatrol (rs.flatMap reachPlots)
     u0.reproject rs = (v, changed, skipped) →
     exec .reproject s = .next (v.complete c (if (rs.any fun r => !s.reachLoaded r && u0.reachTested r) then 0x01 else 0x00)
       [changed, skipped, v.nv.survey.version]) ∧
     v.nv.survey.version = (if changed = 0 then s.nv.survey.version else s.nv.survey.version + 1) ∧
     (∀ r, s.reachLoaded r = true → cellGet 25 v.nv.survey.proj r = cellGet 25 s.nv.survey.proj r) ∧ v.edge = s.edge ∧ v.parcels = s.parcels)

/-- A plot of a running parcel that has made progress sends its mark, whatever its own state: one that gets to the root restarts the stall count of every plot
of the parcel that works. While the watchdog counts, an expiry that gets to the root makes a deadlock due when a plot of the parcel holds work, and restarts every
count when none does; a report with a parity error is lost, and faults its tree. A deadlock that is due drains the parcel with outcome DEADLOCK at
once. A parcel whose fault no fault drain has reported is drained for it, once, be it drained already; a drain under way that is not decided becomes that
fault drain, and scans the records without memory to the fault area (13 R438; DEDUCED, log entry 19). -/
def Obligations.WatchdogMarksAndDeadlocks : Prop :=
  ((∀ (s : State) (p : XY) (q : Parcel), s.parcelAt p.x p.y = some q → q.phase = .running → s.alive (s.phys p.x p.y) = true →
     (s.plot (s.phys p.x p.y)).watch.moved = true →
     (let v := s.plot (s.phys p.x p.y)
      let s1 := s.setPlot (s.phys p.x p.y) { v with watch := { v.watch with moved := false } }
      (exec (.progressMark ⟨p, false⟩) s = .next (s1.badParity (s1.reportPkt q p 3 0))) ∧
      ((s1.reportUp q p 3 0 true).2 = true → Answers (.progressMark ⟨p, true⟩) s fun t =>
        (∀ z ∈ q.plots, onGrid z.x z.y = true → s.alive (s.phys z.x z.y) = true →
          (t.plot (s.phys z.x z.y)).watch.count = 0 ∧ (t.plot (s.phys z.x z.y)).watch.expired = false
            ∧ (t.plot (s.phys z.x z.y)).mem = (s.plot (s.phys z.x z.y)).mem) ∧ { t with plots := s.plots, freeCtr := s.freeCtr } = s))) ∧
   (∀ (s : State) (p : XY) (q : Parcel), s.parcelAt p.x p.y = some q → s.parcel q.num = some q → s.watchArmed q = true → s.alive (s.phys p.x p.y) = true →
     (exec (.stallExpiry ⟨p, false⟩) s = .next (s.badParity (s.reportPkt q p 5 0))) ∧
     ((s.reportUp q p 5 0 true).2 = true →
       (((s.parcelPlots q).any fun zp => zp.2.holdsWork) = true → Answers (.stallExpiry ⟨p, true⟩) s fun t =>
         t.parcel q.num = some { q with expired := true } ∧ (t.plot (s.phys p.x p.y)).watch.expired = true
           ∧ { t with parcels := s.parcels, plots := s.plots, freeCtr := s.freeCtr } = s) ∧
       (((s.parcelPlots q).any fun zp => zp.2.holdsWork) = false → Answers (.stallExpiry ⟨p, true⟩) s fun t =>
         (∀ z ∈ q.plots, onGrid z.x z.y = true → s.alive (s.phys z.x z.y) = true → (t.plot (s.phys z.x z.y)).watch.count = 0) ∧
           { t with plots := s.plots, freeCtr := s.freeCtr } = s)))) ∧
  ((∀ (s : State) (q : Parcel), s.parcel q.num = some q → q.expired = true → q.drain = none → q.ran = true →
     Answers (.parcelDeadlock q.num) s fun t =>
       ((t.parcel q.num).bind (·.drain)).map (fun d => (d.kind, d.outcome, d.settling)) = some (2, some 2, true)
         ∧ (t.parcel q.num).map (·.phase) = some .draining ∧ t.edge = s.edge) ∧
   (∀ (s : State) (q : Parcel), s.parcel q.num = some q → s.serves .theodolite = true →
     ((q.fault.any fun f => !f.reported) = false → exec (.faultDrainOrder q.num) s = .next s) ∧
     ((q.fault.any fun f => !f.reported) = true → q.drain = none → Answers (.faultDrainOrder q.num) s fun t =>
       ((t.parcel q.num).bind (·.drain)).map (fun d => (d.kind, d.outcome, d.cmd)) = some (1, if q.ran then none else some 0, none)
         ∧ (t.parcel q.num).map (·.phase) = some .draining ∧ t.edge = s.edge) ∧
     (∀ d, (q.fault.any fun f => !f.reported) = true → q.drain = some d → d.outcome = none → d.kind ≠ 1 → exec (.faultDrainOrder q.num) s =
       .next (s.setParcel { q with drain := some { d with kind := 1, scan := q.faultScan.2.2, withMemory := false, dest := q.faultScan.1, room := q.faultScan.2.1 } }))))

/-- A drain ends by quiescence at the second interval in succession in which nothing of the parcel's own traffic is in flight, no parcel commit goes on, and every
plot's report gets to the root and says that it was quiescent throughout; an interval without that starts the count again. It ends by timeout when a plot's count
expires: every plot stops, and the record of each that has supply carries PARTIAL; after a timeout the plots settle, once no parcel commit goes on (when the event
falls due is its command's affair, log entry 4; what a stop drops, log entry 22). A decided drain reports once, when Theodolite is there for what it has to do (DEDUCED, log entry 19): the
parcel is drained and keeps its outcome, and the command that ordered it completes with the drain report. A second interval with every plot ended notes the end of the parcel, once. -/
def Obligations.DrainsEndAndAreReported : Prop :=
  ((∀ (s : State) (q : Parcel) (d : Drain), s.parcel q.num = some q → q.drain = some d → d.outcome = none →
     (let still := ∀ qp ∈ s.parcelPlots q, s.alive (s.phys qp.1.x qp.1.y) = true ∧ qp.2.watch.quiet = true ∧ qp.2.quiescentNow = true
        ∧ s.reportUp q qp.1 4 1 true = (s, true)
      (still → s.nothingInFlight q = true → s.joinGoesOn q = false → q.quiet = 0 → Answers (.quiescenceReport ⟨q.num, true⟩) s fun t =>
        (t.parcel q.num).map (fun p => (p.quiet, p.drain)) = some (1, some d)) ∧
      (still → s.nothingInFlight q = true → s.joinGoesOn q = false → q.quiet = 1 → Answers (.quiescenceReport ⟨q.num, true⟩) s fun t =>
        ((t.parcel q.num).bind (·.drain)).map (fun e => (e.outcome, e.cycles)) = some (some 0, s.netCycles - d.start) ∧ t.edge = s.edge) ∧
      ((s.nothingInFlight q = false ∨ s.joinGoesOn q = true ∨ ∃ qp ∈ s.parcelPlots q, s.alive (s.phys qp.1.x qp.1.y) = false ∨ qp.2.watch.quiet = false ∨ qp.2.quiescentNow = false) →
        Answers (.quiescenceReport ⟨q.num, true⟩) s fun t => (t.parcel q.num).map (fun p => (p.quiet, p.drain)) = some (0, some d)))) ∧
   (∀ (s : State) (z : XY) (q : Parcel) (d : Drain), s.parcelAt z.x z.y = some q → s.parcel q.num = some q → q.drain = some d → d.outcome = none →
     s.alive (s.phys z.x z.y) = true → Answers (.drainTimeout z) s fun t =>
       ((t.parcel q.num).bind (·.drain)).map (fun e => (e.outcome, e.settling, e.notQuiet)) = some (some 1, true, (s.notQuiet q).length)
         ∧ t.edge = s.edge ∧ ∀ w ∈ q.plots, onGrid w.x w.y = true → s.powered (fieldOf w.x w.y) = true →
           (t.plot (s.phys w.x w.y)).watch.partialRec = true) ∧
   (∀ (s : State) (q : Parcel) (d : Drain), s.parcel q.num = some q → q.drain = some d → d.settling = true →
     (s.joinGoesOn q = true → exec (.timeoutSettle q.num) s = .next s) ∧
     (s.joinGoesOn q = false → Answers (.timeoutSettle q.num) s fun t =>
       ((t.parcel q.num).bind (·.drain)).map (·.settling) = some false ∧ t.edge = s.edge))) ∧
  ((∀ (s : State) (q : Parcel) (d : Drain), s.parcel q.num = some q → q.drain = some d → d.outcome.isSome = true → d.settling = false →
     (s.endWaits q d = true → exec (.scanComplete q.num) s = .next s) ∧
     (s.endWaits q d = false → Answers (.scanComplete q.num) s fun t =>
       (t.parcel q.num).map (fun p => (p.drain, p.phase, p.lastOutcome)) = some (none, .drained, d.outcome)
         ∧ (d.scan = false → t.edge = s.edge))) ∧
   (∀ (s : State) (q : Parcel) (d : Drain) (c : Cmd), s.parcel q.num = some q → q.drain = some d → d.outcome.isSome = true → d.settling = false →
     s.endWaits q d = false → d.scan = false → d.cmd = some c → q.fault = none → (s.markSuspects q) = s →
     exec (.scanComplete q.num) s
       = .next ((s.setParcel { q with drain := none, phase := .drained, lastOutcome := d.outcome,
                                      spent := q.spent || d.outcome != some 0 || s.countFaulted q != 0 }).complete c 0x00 (s.drainWords q d))) ∧
   (∀ (s : State) (q : Parcel), s.parcel q.num = some q → q.phase = .running → s.allEnded q = true → q.ends = 1 → q.endPosted = false →
     Answers (.endReport q.num) s fun t => (t.parcel q.num).map (fun p => (p.endPosted, p.ends)) = some (true, 2)
       ∧ { t with hif := s.hif, parcels := s.parcels } = s))

/-! ## Events of a plot (spec/02 to spec/07, spec/09) -/

/-- An event of a plot that does not work (void, dead, fenced, unpowered, off the grid) does nothing. One that works leaves edge memory,
controllers, held trees, processors, power, clocks, debug state, module registers, what the last read answered, and the queue. It changes a plot
that is no neighbour of its own in the mark of a staged swap alone, which a fault of their parcel takes away, and a neighbour besides that in memory, counters and
the under-survey mark; a parcel in its fault and its staged swap; the survey record in the under-survey set, with the transaction that writes it; the services in
the counts that bear on that set; the host interface only where a parcel has a swap staged. Where no parcel has a spanning tree, whose modules a fault tells, it leaves the
ports, their held packets and role holds, and every field but its plot's own, which changes in its network counters and its fault marks. -/
def Obligations.PlotEventsStayAtTheirPlot : Prop :=
  ∀ (s : State) (p : XY) (op rule : Nat), ∀ c ∈ plotEvents p op rule,
    (s.runAt p.x p.y = none → exec c s = .next s) ∧
    (∀ t, exec c s = .next t → t.edge = s.edge ∧ t.emcs = s.emcs ∧ t.held = s.held ∧ t.notices = s.notices
      ∧ t.procs = s.procs ∧ t.pwr = s.pwr ∧ t.clk = s.clk ∧ t.dbg = s.dbg ∧ t.regs = s.regs ∧ t.out = s.out ∧ t.nack = s.nack
      ∧ t.pending = s.pending
      ∧ (∀ ph, ph ≠ s.phys p.x p.y →
          ((∀ d q, d < 4 → neighbourXY p.x p.y d = some q → s.phys q.x q.y ≠ ph) → { t.plot ph with swapStaged := (s.plot ph).swapStaged } = s.plot ph) ∧
          { t.plot ph with mem := (s.plot ph).mem, cnt := (s.plot ph).cnt, underSurvey := (s.plot ph).underSurvey, swapStaged := (s.plot ph).swapStaged } = s.plot ph)
      ∧ (∀ k, (t.parcel k).map (fun q => { q with fault := none, swap := none }) = (s.parcel k).map fun q => { q with fault := none, swap := none })
      ∧ { t.nv with survey := { t.nv.survey with under := s.nv.survey.under, seq := s.nv.survey.seq }, work := s.nv.work, nextTxn := s.nv.nextTxn } = s.nv
      ∧ { t.svc with corrected := s.svc.corrected, passes := s.svc.passes } = s.svc
      ∧ ((∀ q ∈ s.parcels, q.swap = none) → t.hif = s.hif)
      ∧ ((∀ q ∈ s.parcels, q.spans = []) → t.ports = s.ports ∧ t.roleHolds = s.roleHolds ∧ t.swHeld = s.swHeld
        ∧ ∀ f, (f ≠ fieldOf p.x p.y → t.field f = s.field f)
          ∧ { t.field f with net := (s.field f).net, pending := (s.field f).pending, first := (s.field f).first } = s.field f))

/-- Control operations are complete as they issue (DEDUCED, log entry 37): nothing is written or sent, the slot moves on; 0x01 ends the firing's issue, 0x02 marks the
firing for a switch. A word in turn that breaks a rule (02 R81), or that sends from a commit group by another class than 5 (07 R267), faults the plot with cause 4
and a record that names it, whatever its row (it reads nothing first: DEDUCED, log entry 28). An operation in flight whose work is done leaves, and with the last one a plot whose target is its
end ends (05 R189); a ring release that waited for a pop takes what it names once it is there; a
send of no commit group that waited for credit puts its message on its channel once the credit is there; a difference between the sequencer's two copies faults the
plot with cause 1. -/
def Obligations.OperationsIssueResumeAndComplete : Prop :=
  (∀ (s : State) (p : XY) (r : Run) (f : Firing) (h : Header) (w : W128), InTurn s p r f h w → opClass w = 0 →
     (opCode w = 0 → Turns (.noOperation p) s r (r.begun f h w)) ∧
     (opCode w = 0 → h.counted = false → f.slot + 1 < h.opCount → (f.advance h w).slot = f.slot + 1 ∧ (f.advance h w).issued = f.issued) ∧
     (opCode w = 1 → Turns (.endFiring p) s r (r.begun f h w) ∧ (f.advance h w).issued = true) ∧
     (opCode w = 2 → Turns (.switchRequest p) s r (r.begun f h w) ∧ (f.advance h w).switch = true)) ∧
  (∀ (s : State) (p : XY) (r : Run) (f : Firing) (h : Header) (w : W128), s.runAt p.x p.y = some r → r.p.issuable = some (f, h, w) →
     (opIllegal w = true ∨ ((r.p.group.state = 1 ∨ r.p.group.state = 2) ∧ specKind (opDst w) = kChan ∧ opClass w ≠ 5)) →
     ∀ e ∈ opRows p, rowMatches e.2.1 e.2.2.1 e.2.2.2 w = true →
     ∃ r', Turns e.1 s r r' ∧ Trapped (r.begun f h w) r' (r.flightOf f h w).trapSrc 8 4 0 0) ∧
  ((∀ (s : State) (p : XY) (r : Run) (op : Nat) (g : Flight), s.runAt p.x p.y = some r → r.p.flight op = some g →
     (g.work = false →
       (let r1 := { r with p := { r.p with seq := { r.p.seq with ops := r.p.seq.ops.filter fun x => x.id != op } } }
        (r.p.seq.target ≠ some 8 ∨ r1.p.seq.ops ≠ [] ∨ r.p.seq.firings ≠ [] ∨ r.p.seq.gen ≠ none → Turns (.operationComplete p op) s r r1) ∧
        (r.p.seq.target = some 8 → r1.p.seq.ops = [] → r.p.seq.firings = [] → r.p.seq.gen = none → (r.p.st = .running ∨ r.p.st = .draining) →
          ∃ r', Turns (.operationComplete p op) s r r' ∧ r'.p.seq.ended = true ∧ r'.p.seq.target = none ∧ r'.p.seq.ops = [] ∧ r'.p.mem = r.p.mem ∧
            (r.p.st = .running → r'.p.st = .quiescent) ∧ (r.p.st = .draining → r'.p.st = .draining)))) ∧
     (g.work = true → g.wait = .pop → r.p.opsLive = true → opClass g.word = 6 →
       ((∀ r1, r.ringRelease (specIndex (opSrcA g.word)) (spLen (opParam g.word)) = some r1 →
         Turns (.operandPopResume p op) s r (r1.keepFlight { g with work := false, wait := .none })) ∧
       (r.ringRelease (specIndex (opSrcA g.word)) (spLen (opParam g.word)) = none → Turns (.operandPopResume p op) s r (r.keepFlight g)))) ∧
     (∀ c d, g.work = true → g.wait = .credit c → r.p.opsLive = true → opClass g.word = 5 → opCode g.word = 0 → g.out = [d] → g.done = 0 →
       g.grp = 0 → r.badTarget (specIndex (opDst g.word)) = none →
       (if (r.p.chan (specIndex (opDst g.word))).ready (spLen (opParam g.word)) then
         Turns (.creditWaitResume p op) s r ((r.chanPut (specIndex (opDst g.word)) d (spSignal (opParam g.word))).keepFlight
           { g with done := 1, out := [], wait := .none, work := false })
        else Turns (.creditWaitResume p op) s r (r.keepFlight { g with wait := .credit (specIndex (opDst g.word)) })))) ∧
   (∀ (s : State) (p : XY) (r : Run), s.runAt p.x p.y = some r →
     ((r.p.st ≠ .running → r.p.st ≠ .draining → Turns (.sequencerMismatch p) s r r) ∧
     ((r.p.st = .running ∨ r.p.st = .draining) → r.p.trap.info.getLsbD 0 = false → ∃ r', Turns (.sequencerMismatch p) s r r' ∧
       r'.p.st = .faulted ∧ r'.p.trap.fault = r.p.trap.fault ||| 1 ∧ bitsOf r'.p.trap.info.toNat 3 0 = 3 ∧ r'.p.mem = r.p.mem ∧
       r'.p.edge.tickets = List.replicate 24 0 ∧ r'.p.queues = r.p.queues ∧ r'.p.chans.length = r.p.chans.length))))

/-- A tensor operation whose COUNT of steps all find their operands there and clean, and which, with the NaN trap on, neither consumes nor makes a NaN: the
products of each step's entries, or the two words of each entry, are added in turn to the tile of DST, which 0x01 clears first; 0x03 clears the tile. Nothing is
sent beyond what the fetches send, no memory is written. A step that finds a poisoned operand, or with the trap on a NaN, faults the plot with cause 2, 5 or both
(02 R82, 03 R141, R148): the tile holds what some of the steps before it have added (which, R154 leaves open: log entries 12, 101), and the record names the operand.
A NaN that the last step makes faults it with cause 5 too. -/
def Obligations.TensorOperationsAccumulate : Prop :=
  (∀ (s : State) (p : XY) (r : Run) (f : Firing) (h : Header) (w : W128), InTurn s p r f h w → opClass w = 1 → opCode w = 3 →
    ∃ r', Turns (.clearTile p) s r r' ∧ r'.p.tile (tileIndex (opDst w) f.number) = List.replicate 64 0 ∧ r'.p.mem = r.p.mem
      ∧ r'.pkts = r.pkts ∧ r'.p.loc = r.p.loc ∧ r'.p.tile (1 - tileIndex (opDst w) f.number) = r.p.tile (1 - tileIndex (opDst w) f.number)) ∧
  (∀ (s : State) (p : XY) (r : Run) (f : Firing) (h : Header) (w : W128), InTurn s p r f h w → opClass w = 1 →
    ∀ e ∈ [(Instr.tensorMac p, 0), (.tensorClearMac p, 1), (.tensorAddWords p, 2)], opCode w = e.2 →
    (let i := tileIndex (opDst w) f.number
     let r0 := if opCode w = 1 then { r.begun f h w with p := (r.begun f h w).p.setTile i zeroTile } else r.begun f h w
     let a := Accs.ofTile (tpAccMode (opParam w) == 1) (r0.p.tile i)
     let f0 := { r.flightOf f h w with accs := some a }
     (∀ cs r1 f1, TensorSteps w (opCount w) 0 r0 f0 cs r1 f1 → (r.p.nanTrap = true → makesNan w a cs = false) →
       ∃ r', Turns e.1 s r r' ∧ r'.pkts = r1.pkts ∧ r'.p.mem = r1.p.mem ∧ r'.p.loc = r1.p.loc ∧ r'.p.tile i = (sums w a cs).toTile) ∧
     (∀ k cs r1 f1 r2 f2 c poison nan, TensorSteps w k 0 r0 f0 cs r1 f1 → k < opCount w → TensorStep w k r1 f1 r2 f2 c poison nan →
       (r.p.nanTrap = true → makesNan w a cs = false) →
       (let n := if r.p.nanTrap then nan else none
        (poison = true ∨ n.isSome = true) → ∃ r', Turns e.1 s r r' ∧ DataFaulted r2 r' (r.flightOf f h w).trapSrc poison n ∧
          ∃ j ≤ k, r'.p.tile i = (sums w a (cs.take j)).toTile)) ∧
     (∀ cs c r1 f1 m, TensorSteps w (opCount w) 0 r0 f0 (cs ++ [c]) r1 f1 → r.p.nanTrap = true → makesNan w a cs = false →
       ((sums w a cs).resolve (opFpInf w) (tpAnchor (opParam w)) c).2 = some m →
       ∃ r', Turns e.1 s r r' ∧ DataFaulted r1 r' (r.flightOf f h w).trapSrc false (some (trapNan 6 (opCount w - 1) m)) ∧
         r'.p.tile i = (sums w a cs).toTile)))

/-- A vector or special-function operation whose COUNT of vectors all find their operands there and clean and DST ready, and which, with the NaN trap on, neither
consumes nor makes a NaN: what leaves for DST is the packed list of each vector's result elements in turn, without poison, and the operation is at its end. A vector
that finds a poisoned operand, or with the trap on a NaN, faults the plot with cause 2, 5 or both (02 R82, 03 R141, R148), and the record names the operand; a
NaN that the last vector makes faults it with cause 5, and memory keeps what it held. (Each result leaves before the next vector issues: log entry 100.) The
elements of the vector class: sum, difference and product, each rounded once to the format; the smaller and the larger; the sign cleared and changed; the value in another
format; a select's element is one of its two; a compare's mask element is a free function of the test's outcome (log entry 11). -/
def Obligations.VectorOperationsDeliver : Prop :=
  (∀ (s : State) (p : XY) (r : Run) (f : Firing) (h : Header) (w : W128), InTurn s p r f h w →
     ∀ e ∈ vectorRows p, opClass w = e.2.1 → opCode w = e.2.2 →
     (∀ r1 f1, UnitsDone (VectorDone w) (opCount w) 0 (r.begun f h w) (r.flightOf f h w) r1 f1 → Turns e.1 s r (r1.addFlight { f1 with work := false })) ∧
     (∀ k r1 f1 r2 f2 dA dB, UnitsDone (VectorDone w) k 0 (r.begun f h w) (r.flightOf f h w) r1 f1 → k < opCount w →
       VectorFetched w k r1 f1 r2 f2 dA dB →
       (let poison := dA.any (·.2) || dB.any (·.2)
        let nan := if r.p.nanTrap then vectorNan w r2.free k (vectorA w dA) (vectorB w dB) else none
        let res := vectorResult w r2.free (vectorA w dA) (vectorB w dB)
        (poison = true ∨ nan.isSome = true → ∃ r', Turns e.1 s r r' ∧ DataFaulted r2 r' (r.flightOf f h w).trapSrc poison nan) ∧
        (∀ m, poison = false → nan = none → r.p.nanTrap = true → k + 1 = opCount w → vectorMade w (vectorA w dA) res = some m →
          ∃ r', Turns e.1 s r r' ∧ DataFaulted r2 r' (r.flightOf f h w).trapSrc false (some (trapNan 6 k m)))))) ∧
  (∀ (w : W128) (free : Nat) (a b : List Nat) (i x y : Nat) (fm : Fmt), Fmt.ofCode (opFmt w) = some fm → a[i]? = some x → b[i]? = some y →
     let at' := (vectorElems w free a b)[i]?
     let rnd := fun z : Sys2Proof.Machine.Num => (fm.convert (opFpInf w) false false z).bits
     (opCode w = 0 → at' = some (rnd ((fm.decode x).add (fm.decode y)))) ∧
     (opCode w = 1 → at' = some (rnd ((fm.decode x).add (fm.decode y).neg))) ∧
     (opCode w = 2 → at' = some (rnd ((fm.decode x).mul (fm.decode y)))) ∧
     (opCode w = 4 → at' = some (rnd ((fm.decode x).min2 (fm.decode y)))) ∧
     (opCode w = 5 → at' = some (rnd ((fm.decode x).max2 (fm.decode y)))) ∧
     (opCode w = 6 → at' = some ((Config.maskElement (opFmt w) (Num.test (opParam w % 8) (fm.decode x) (fm.decode y))).toNat % 2 ^ fm.bits)) ∧
     (opCode w = 7 → at' = some x ∨ at' = some y) ∧
     (opCode w = 8 → at' = some (x % 2 ^ (fm.bits - 1))) ∧
     (opCode w = 9 → at' = some (x ^^^ 2 ^ (fm.bits - 1))) ∧
     (opCode w = 10 → ∀ t, Fmt.ofCode (opParam w % 64) = some t →
       at' = some (t.convert (opFpInf w) (opIntWrap w) false (fm.decode x)).bits))

/-- A move delivers to DST, one after another, the COUNT of units that it fetches from its source, as they are: poison goes with them, and a NaN is nothing to a
move. A unit whose source address breaks a rule (02 R44, R55) faults the plot with cause 3 and names the address. A send of one message, its target good and its credit there, puts one
message on its channel; in an open commit group it is held and its credit taken (07 R266), in an aborted one nothing leaves. A send of a tile with
32 credits puts 32 messages. A ring release gives back what it names. -/
def Obligations.MovesAndSendsDeliver : Prop :=
  (∀ (s : State) (p : XY) (r : Run) (f : Firing) (h : Header) (w : W128), InTurn s p r f h w → opClass w = 4 → mpEdge (opParam w) = false →
    (∀ r1 f1, UnitsDone (MoveDone w) (opCount w) 0 (r.begun f h w) (r.flightOf f h w) r1 f1 → Turns (.move p) s r (r1.addFlight { f1 with work := false })) ∧
    (∀ k r1 f1 ta, UnitsDone (MoveDone w) k 0 (r.begun f h w) (r.flightOf f h w) r1 f1 → k < opCount w →
      (specKind (opSrcA w) = kMem ∨ specKind (opSrcA w) = kNbr) →
      r1.badAccess (if specKind (opSrcA w) = kNbr then some (specIndex (opSrcA w)) else none) (f1.addr k) (mpUnit (opParam w)) = some ta →
      ∃ r', Turns (.move p) s r r' ∧ Trapped r1 r' (r.flightOf f h w).trapSrc 4 3 ta 0)) ∧
  (∀ (s : State) (p : XY) (r r1 : Run) (f : Firing) (h : Header) (w : W128) (f1 : Flight) (d : Data), InTurn s p r f h w → opClass w = 5 →
    opCode w = 0 → r.p.group.state = 0 →
    (r.begun f h w).sendGot (r.flightOf f h w) (spLen (opParam w)) = .got r1 f1 d →
    r1.badTarget (specIndex (opDst w)) = none → (r1.p.chan (specIndex (opDst w))).ready (spLen (opParam w)) = true →
    Turns (.send p) s r ((r1.chanPut (specIndex (opDst w)) d (spSignal (opParam w))).addFlight
      { f1 with done := 1, out := [], wait := .none, work := false })) ∧
  (∀ (s : State) (p : XY) (r : Run) (f : Firing) (h : Header) (w : W128), InTurn s p r f h w → opClass w = 5 → opCode w = 0 →
    (specKind (opSrcA w) = kMem ∨ specKind (opSrcA w) = kTile ∨ specKind (opSrcA w) = kLoc) → r.p.group.step = 0 →
    (let ch := specIndex (opDst w)
     let len := spLen (opParam w)
     (r.p.group.state = 2 → Turns (.send p) s r ((r.begun f h w).addFlight { r.flightOf f h w with work := false })) ∧
     (r.p.group.state = 1 → (specKind (opSrcA w) = kMem → r.badRange none (opAddr w + (r.flightOf f h w).rep) len = none) →
      r.badTarget ch = none → r.p.group.sends.length < 8 → (r.p.chan ch).closed = false → (r.p.chan ch).ready len = true → ch < r.p.chans.length →
      ∃ r', Turns (.send p) s r r' ∧ r'.pkts = r.pkts ∧ r'.p.mem = r.p.mem ∧ r'.p.chan ch = (r.p.chan ch).spend len ∧
        r'.p.group.sends = r.p.group.sends ++ [⟨w, f.number, f.sheet, ((r.p.chan ch).need len).1⟩] ∧
        r'.p.group.heldCount = r.p.group.heldCount + 1))) ∧
  (∀ (s : State) (p : XY) (r : Run) (f : Firing) (h : Header) (w : W128), InTurn s p r f h w → opClass w = 5 → opCode w = 1 →
    r.p.group.state = 0 → r.badTarget (specIndex (opDst w)) = none → (r.p.chan (specIndex (opDst w))).kind = 0 →
    (r.p.chan (specIndex (opDst w))).closed = false → 32 ≤ (r.p.chan (specIndex (opDst w))).credit → specIndex (opDst w) < r.p.chans.length →
    ∃ r', Turns (.sendTile p) s r r' ∧ r'.pkts.length = r.pkts.length + 32 ∧ r'.p.mem = r.p.mem
      ∧ (r'.p.chan (specIndex (opDst w))).credit = (r.p.chan (specIndex (opDst w))).credit - 32) ∧
  (∀ (s : State) (p : XY) (r r1 : Run) (f : Firing) (h : Header) (w : W128), InTurn s p r f h w → opClass w = 6 →
    (r.begun f h w).ringRelease (specIndex (opSrcA w)) (spLen (opParam w)) = some r1 →
    Turns (.ringRelease p) s r (r1.addFlight { r.flightOf f h w with work := false }))

/-- An edge move of one line within a window of its parcel, outside a commit group, with a ticket held: one request for that line goes to the line's
controller and spends the ticket; the tracker counts one request; with ADV the pointer moves on by 64. -/
def Obligations.EdgeMovesSendRequests : Prop :=
  ∀ (s : State) (p : XY) (r : Run) (f : Firing) (h : Header) (w : W128) (rd : Bool), InTurn s p r f h w → opClass w = 4 →
    mpEdge (opParam w) = true → edgeIsRead w = rd → opCount w = 1 → r.p.group.state = 0 →
    (let reg := if rd then specIndex (opSrcA w) else specIndex (opDst w)
     let ptr := (r.p.getLoc f.sheet reg).toNat
     let c := (edgePlace ptr).1
     edgeRangeFault r.p.edge.windows ptr 64 (!rd) = none → r.badAccess none ((r.flightOf f h w).addr 0) 64 = none →
     0 < (r.p.edge.tickets[c]?).getD 0 → 8 * f.sheet + reg < r.p.loc.length →
     ∃ r' q, Turns (if rd then .edgeRead p else .edgeWrite p) s r r' ∧ r'.pkts = r.pkts ++ [⟨r.here, .emc c, 2, .request c q⟩] ∧
       q.addr = ptr ∧ q.len = 64 ∧ q.write = !rd ∧ q.locals = [(r.flightOf f h w).addr 0] ∧
       q.data = (if rd then [] else (r.read none ((r.flightOf f h w).addr 0) 64).2) ∧
       (r'.p.edge.tickets[c]?).getD 0 = (r.p.edge.tickets[c]?).getD 0 - 1 ∧
       r'.p.edge.trackers = r.p.edge.trackers ++ [⟨r.p.edge.nextTracker, 1, mpSignal (opParam w)⟩] ∧
       (r'.p.getLoc f.sheet reg).toNat = if mpAdv (opParam w) then (ptr + 64) % 2 ^ 64 else ptr)

/-- A finish which, with the NaN trap on, neither consumes nor makes a NaN; with the trap on, one that does faults the plot with cause 5 and a record that names the first
(03 R141, R147), and changes no sheet-local register. Outside a generation period the units made of the tile leave for DST, and the operation is at its end when
all have left; a finish that ends its generation period delivers the units made of all its tiles, and the period is closed; in a period that goes
on, the tile's values join the period and nothing leaves. Units made while an earlier finish still has units to deliver wait behind them (04 R172). The sheet-local registers that the
normaliser or the position step uses take their new values. The padding of a unit of FP6 elements is a free value (log entry 39). -/
def Obligations.FinishDeliversItsUnits : Prop :=
  ∀ (s : State) (p : XY) (r : Run) (f : Firing) (h : Header) (w : W128), InTurn s p r f h w → opClass w = 7 →
    (let par := sheetFin r.p.seq.cache f.sheet
     let o := finOpOf w
     let res := par.run o (r.p.tile (tileIndex (opSrcA w) f.number)) (r.p.getLoc f.sheet o.loc) (r.p.getLoc f.sheet ((o.loc + 1) % 8))
     let p0 := (r.begun f h w).p
     let p1 := if par.normEn then (p0.setLoc f.sheet o.loc res.loc0).setLoc f.sheet ((o.loc + 1) % 8) res.loc1
       else if par.act = 10 then p0.setLoc f.sheet o.loc res.loc0 else p0
     let r1 := { r with p := p1, free := r.free + 1 }
     let clean := r.p.nanTrap = true → res.consumed = none ∧ res.produced = none
     (∀ n, r.p.nanTrap = true → ((∃ e, res.consumed = some e ∧ n = trapNan 5 0 e) ∨ (∃ e, res.consumed = none ∧ res.produced = some e ∧ n = trapNan 6 0 e)) →
       ∃ r', Turns (.finish p) s r r' ∧ DataFaulted r r' (r.flightOf f h w).trapSrc false (some n) ∧ r'.p.loc = r.p.loc) ∧
     (clean → par.genBlock = 0 → r.p.finishAhead (r.flightOf f h w) = true → ∃ r', Turns (.finish p) s r r' ∧ r'.pkts = r.pkts ∧ r'.p.mem = r.p.mem ∧
       r'.p.loc = p1.loc ∧ r'.p.seq.ops = r.p.seq.ops
         ++ [{ r.flightOf f h w with out := (par.plainUnits o (Config.unitPad r.free) res.vals).map cleanData, wait := .behind }]) ∧
     (clean → par.genBlock = 0 → r.p.finishAhead (r.flightOf f h w) = false → ∀ r2 f2,
       (let out := (par.plainUnits o (Config.unitPad r.free) res.vals).map cleanData
        Run.deliverOut r1 { r.flightOf f h w with out := out, wait := .none } out = .on r2 f2) →
       Turns (.finish p) s r (r2.addFlight { f2 with work := false, wait := .none })) ∧
     (clean → par.genBlock ≠ 0 → r.p.finishAhead (r.flightOf f h w) = false → ∀ r2 f2,
       (let old := match p1.seq.gen with | some g => g.tiles | none => []
        let tiles := old ++ [⟨par.ordered res.vals, o.fpInf, o.intWrap, res.rowScales⟩]
        let out := (par.periodUnits (Config.unitPad r.free) tiles).map cleanData
        (o.periodEnd = true ∨ par.genTiles ≤ tiles.length) →
        Run.deliverOut { r1 with p := { p1 with seq := { p1.seq with gen := none } } } { r.flightOf f h w with out := out, wait := .none } out = .on r2 f2 →
        Turns (.finish p) s r (r2.addFlight { f2 with work := false, wait := .none }))) ∧
     (clean → par.genBlock ≠ 0 → o.periodEnd = false →
       (let old := match p1.seq.gen with | some g => g.tiles | none => []
        let tiles := old ++ [⟨par.ordered res.vals, o.fpInf, o.intWrap, res.rowScales⟩]
        tiles.length < par.genTiles →
        ∃ r', Turns (.finish p) s r r' ∧ r'.pkts = r.pkts ∧ r'.p.mem = r.p.mem ∧ r'.p.loc = p1.loc ∧
          ∃ g, r'.p.seq.gen = some g ∧ g.tiles = tiles ∧ g.word = w ∧ g.sheet = f.sheet)))

/-- 07 R245: beacon operations take no operand and a PARAM of beacon and value, and any other is illegal; in turn an add adds its value modulo 65,536, a set
replaces, and a wait stays in flight, where it holds issue. 07 R246: a wait in flight is over when its beacon, less its threshold modulo 65,536, is below
32,768, and not before. -/
def Obligations.BeaconOperationsAddSetAndWait : Prop :=
  (∀ (s : State) (p : XY) (r : Run) (f : Firing) (h : Header) (w : W128), InTurn s p r f h w → opClass w = 8 →
    (let b := bitsOf (opParam w) 4 0
     let v := bitsOf (opParam w) 20 5
     let r0 := r.begun f h w
     (opCode w = 0 → Turns (.beaconAdd p) s r { r0 with p := { r0.p with beacons := r.p.beacons.set b ((r.p.beacon b + v) % 65536) } }) ∧
     (opCode w = 2 → Turns (.beaconSet p) s r { r0 with p := { r0.p with beacons := r.p.beacons.set b v } }) ∧
     (opCode w = 1 → Turns (.beaconWait p) s r (r0.addFlight { r.flightOf f h w with wait := .beacon })))) ∧
  (∀ w : W128, opClass w = 8 → (2 < opCode w ∨ specKind (opSrcA w) ≠ 0 ∨ specKind (opSrcB w) ≠ 0 ∨ specKind (opDst w) ≠ 0 ∨ 2 ^ 21 ≤ opParam w) →
    opIllegal w = true) ∧
  (∀ p : Plot, (∃ g ∈ p.seq.ops, g.wait = .beacon) → p.issuable = none) ∧
  (∀ (s : State) (p : XY) (r : Run) (l1 l2 : List Flight) (g : Flight), s.runAt p.x p.y = some r → r.p.seq.ops = l1 ++ g :: l2 →
    (∀ a ∈ l1, a.wait ≠ .beacon) → g.wait = .beacon →
    (let b := r.p.beacon (bitsOf (opParam g.word) 4 0)
     let t := bitsOf (opParam g.word) 20 5
     (b < 65536 → (b + 65536 - t) % 65536 < 32768 → Turns (.beaconWaitSatisfied p) s r
       { r with p := { r.p with seq := { r.p.seq with ops := r.p.seq.ops.filter fun x => x.id != g.id } } }) ∧
     (b < 65536 → 32768 ≤ (b + 65536 - t) % 65536 → Turns (.beaconWaitSatisfied p) s r r)))

/-- Contour operations in turn on a leaf of the program's: an arrive sends the tally to the parent and sets ARRIVED; a wait completes with the
result word when ARRIVED is 0, else it stays in flight until then; on a lost tree the phase completes at once, with result 0 and the status of the
loss. That an arrive completes at issue is DEDUCED (log entry 37). -/
def Obligations.ContourOperationsFollowTheirSlot : Prop :=
  (∀ (s : State) (p : XY) (r : Run) (f : Firing) (h : Header) (w : W128), InTurn s p r f h w → opClass w = 9 →
    (let k := bitsOf (opParam w) 3 0
     let l := r.p.slot k
     let r0 := r.begun f h w
     let up := { r0 with p := r0.p.setSlot k (l.setArrived true)
                         tallies := r.tallies ++ [⟨r.x, r.y, r.x, r.y, k, 0, l.tree, 0, bitsOf (opParam w) 19 4⟩] }
     let lost := { r0 with p := r0.p.leafDone k 0 l.lost }
     l.programLeaf = true → k < r.p.slots.length →
     (opCode w = 0 → l.lost = 0 → Turns (.contourArrive p) s r up) ∧
     (opCode w = 0 → l.lost ≠ 0 → Turns (.contourArrive p) s r lost) ∧
     (opCode w = 1 → l.arrived = false → Turns (.contourWait p) s r { r0 with p := r0.p.putResult f.sheet w l.resultWord }) ∧
     (opCode w = 1 → l.arrived = true → Turns (.contourWait p) s r (r0.addFlight { r.flightOf f h w with wait := .contour })) ∧
     (opCode w = 2 → l.lost = 0 → Turns (.contourArriveAndWait p) s r (up.addFlight { r.flightOf f h w with wait := .contour })) ∧
     (opCode w = 2 → l.lost ≠ 0 → Turns (.contourArriveAndWait p) s r
       { lost with p := lost.p.putResult f.sheet w (lost.p.slot k).resultWord }))) ∧
  (∀ (s : State) (p : XY) (r : Run) (op : Nat) (g : Flight), s.runAt p.x p.y = some r → r.p.flight op = some g → g.work = true → g.wait = .contour →
    (let l := r.p.slot (bitsOf (opParam g.word) 3 0)
     (l.arrived = true → Turns (.operationComplete p op) s r r) ∧
     (l.arrived = false → ∃ r', Turns (.operationComplete p op) s r r' ∧ r'.p.seq.ops = r.p.seq.ops.filter (fun x => x.id != op) ∧
       r'.p.loc = (r.p.putResult g.sheet g.word l.resultWord).loc ∧ r'.p.mem = r.p.mem ∧ r'.pkts = r.pkts)))

/-- Commit groups, whose operations complete as they issue (DEDUCED, log entry 37): an open starts an empty group; a commit writes the group's stores in order, then sends its held sends, and closes it with status
0; an aborted group closes with status 1, or 2 after an overflow, and writes and sends nothing; an abort drops what the group holds, casts the
vote 1 of a parcel group that has not voted, and leaves the plot owing that tree the arrival of the confirm phase (log entry 72). An open inside a
group or on a slot that is no active leaf of the commit use, a commit outside a group or of a parcel group, an abort outside a group and a join
outside a parcel group fault the plot with cause 4, and memory stays. -/
def Obligations.CommitGroupsOpenAndClose : Prop :=
  ∀ (s : State) (p : XY) (r : Run) (f : Firing) (h : Header) (w : W128), InTurn s p r f h w → opClass w = 10 →
    (let g := r.p.group
     let r0 := r.begun f h w
     let shut := fun (q : Run) (status : Nat) =>
       { q with p := (q.p.closeGroup status).putResult f.sheet w (commitWord status g.used g.heldCount) }
     let owing := fun (q : Run) => { q with p := { q.p with group := { q.p.group with owes := some g.slot } } }
     let st := if g.overflowed then 2 else 1
     let k := bitsOf (opParam w) 3 0
     let leaf := (r.p.slot k).role = 1 ∧ (r.p.slot k).active = true ∧ (r.p.slot k).use = 3
     (opCode w = 0 → g.state = 0 → ((opParam w).testBit 4 = true → leaf) →
       ∃ r', Turns (.commitOpen p) s r r' ∧ r'.p.group.state = 1 ∧ r'.p.group.parcel = (opParam w).testBit 4 ∧ r'.p.group.slot = k ∧
         r'.p.group.stores = [] ∧ r'.p.group.sends = [] ∧ r'.p.group.used = 0 ∧ r'.p.group.heldCount = 0 ∧
         { r'.p with group := g } = r0.p ∧ r'.pkts = r.pkts) ∧
     (opCode w = 1 → g.state = 1 → g.parcel = false → Turns (.commit p) s r (shut r0.commitGroup 0)) ∧
     (opCode w = 1 → g.state = 2 → g.parcel = false → Turns (.commit p) s r (shut r0 st)) ∧
     (opCode w = 2 → g.state = 1 → g.parcel = false → Turns (.commitAbort p) s r (shut { r0 with p := r0.p.dropGroup } st)) ∧
     (opCode w = 2 → g.state = 2 → g.parcel = false → Turns (.commitAbort p) s r (shut r0 st)) ∧
     (opCode w = 2 → (g.state = 1 ∨ g.state = 2) → g.parcel = true →
       (let r1 := if g.state = 1 then { r0 with p := r0.p.dropGroup } else r0
        Turns (.commitAbort p) s r (owing (shut (if g.voted then r1 else r1.arrive g.slot 1) st)))) ∧
     (∀ e ∈ [(Instr.commitOpen p, 0, decide (g.state ≠ 0 ∨ ((opParam w).testBit 4 = true ∧ ¬ leaf))),
             (Instr.commit p, 1, decide (g.state = 0 ∨ g.parcel = true)), (Instr.commitAbort p, 2, decide (g.state = 0)),
             (Instr.joinParcelCommit p, 3, decide (g.state = 0 ∨ g.parcel = false))],
       opCode w = e.2.1 → e.2.2 = true → ∃ r', Turns e.1 s r r' ∧ r'.p.st = .faulted ∧ r'.p.trap.fault.getLsbD 3 = true ∧ r'.p.mem = r.p.mem))

/-- A parcel commit: the join votes, where its plot has not, 0, or 1 when its group is aborted, and waits; with the decision 0 an open group's stores
and sends leave, with any other they are dropped and VOTE_ABORT is set, as it is for an aborted group (DEDUCED, log entry 37); either way the plot arrives again to confirm;
then the join closes the group: OVERFLOW 2, else COMMITTED 0 where the group committed and the confirm phase lost no member, else 3; TORN is set
where that phase lost a member. -/
def Obligations.ParcelCommitsVoteDecideAndConfirm : Prop :=
  (∀ (s : State) (p : XY) (r : Run) (f : Firing) (h : Header) (w : W128), InTurn s p r f h w → opClass w = 10 → opCode w = 3 →
    (let g := r.p.group
     g.state = 1 ∨ g.state = 2 → g.parcel = true →
     (let r0 := r.begun f h w
      let r1 := if g.voted then r0 else r0.arrive g.slot (if g.state = 2 then 1 else 0)
      Turns (.joinParcelCommit p) s r (({ r1 with p := { r1.p with group := { r1.p.group with voted := true, step := 2 } } }).addFlight
        { r.flightOf f h w with wait := .join })))) ∧
  (∀ (s : State) (p : XY) (r : Run), s.runAt p.x p.y = some r → r.p.joining.isSome = true → r.p.group.step = 2 →
    (r.p.slot r.p.group.slot).arrived = false →
    (let g := r.p.group
     let l := r.p.slot g.slot
     (g.state = 1 → l.result = 0 → l.status = 0 →
       (let r1 := Run.commitGroup { r with p := { r.p with group := { g with state := 3 } } }
        Turns (.joinDecision p) s r (({ r1 with p := { r1.p with group := { r1.p.group with step := 4 } } }).arrive g.slot 0))) ∧
     (g.state = 2 ∨ (g.state = 1 ∧ (l.result ≠ 0 ∨ l.status ≠ 0)) → ∃ r', Turns (.joinDecision p) s r r' ∧ r'.p.mem = r.p.mem ∧
       r'.pkts = r.pkts ∧ r'.p.group.state = 2 ∧ r'.p.group.step = 4 ∧ r'.p.group.flags.getLsbD 3 = true ∧
       (g.state = 1 → r'.p.group.stores = [] ∧ r'.p.group.sends = [])))) ∧
  (∀ (s : State) (p : XY) (r : Run) (g : Flight), s.runAt p.x p.y = some r → r.p.joining = some g → r.p.group.step = 4 →
    (r.p.slot r.p.group.slot).arrived = false →
    (let l := r.p.slot r.p.group.slot
     let st := if r.p.group.overflowed then 2 else if r.p.group.state = 3 ∧ l.status ≠ 2 then 0 else 3
     ∃ r', Turns (.joinConfirm p) s r r' ∧ r'.p.group.state = 0 ∧ r'.p.group.last = st ∧ r'.p.mem = r.p.mem ∧ r'.pkts = r.pkts ∧
       r'.p.seq.ops = r.p.seq.ops.filter (fun x => x.id != g.id) ∧
       r'.p.loc = (r.p.putResult g.sheet g.word (commitWord st r.p.group.used r.p.group.heldCount)).loc ∧
       (l.status = 2 → r'.p.group.flags.getLsbD 4 = true)))

/-- A firing or an outer iteration of the current sheet begins when its rule holds and not otherwise: the sheet's firing number and the visit's
count move on (IN_VISIT and VISITS wrap: DESIGN CHOICE, log entry 77), CNT_FIRE counts, a new firing is at its first slot; queues, rings, channels, beacons and memory stay. One that has issued, with no
operation left and no group open, is complete; where it ended its visit or asked for a switch, the visit chooses its target: the exit sheet, with the visit count cleared,
when EXIT_AFTER visits are made, else the next sheet; where that is 8, or the sheet is counted and does not fold, the plot ends once no generation period is
open and no firing and no operation is left: it is QUIESCENT, or stays DRAINING. -/
def Obligations.FiringsBeginAndComplete : Prop :=
  (∀ (s : State) (p : XY) (r : Run) (c : Instr) (ok : Bool), s.runAt p.x p.y = some r →
    ((c = .firingBegin p ∧ ok = r.p.mayFire) ∨ (c = .outerIterationBegin p ∧ ok = r.p.mayIterate)) →
    (ok = false → Turns c s r r) ∧
    (ok = true → ∃ r' f, Turns c s r r' ∧ r'.p.seq.firings = r.p.seq.firings ++ [f] ∧ f.sheet = r.p.seq.cur ∧ f.slot = 0 ∧ f.issued = false ∧
      f.number = (r.p.seq.fires[r.p.seq.cur]?).getD 0 ∧ r'.p.seq.fires = r.p.seq.fires.set r.p.seq.cur ((f.number + 1) % 2 ^ 32) ∧
      r'.p.seq.inVisit = (r.p.seq.inVisit + 1) % 65536 ∧ r'.p.cnt = r.p.cnt.bump cFire 1 ∧ r'.p.mem = r.p.mem ∧ r'.p.queues = r.p.queues ∧
      r'.p.rings = r.p.rings ∧ r'.p.chans = r.p.chans ∧ r'.p.beacons = r.p.beacons ∧ r'.pkts = r.pkts ∧ r'.tallies = r.tallies ∧ r'.nbrs = r.nbrs)) ∧
  (∀ (s : State) (p : XY) (r : Run) (f : Firing) (rest : List Firing), s.runAt p.x p.y = some r → r.p.seq.firings = f :: rest → f.issued = true →
    (∀ g ∈ r.p.seq.ops, g.firing ≠ f.id) → (r.p.group.firing ≠ f.id ∨ r.p.group.state = 0 ∨ r.p.group.state = 3) →
    (let h := sheetHeader r.p.seq.cache f.sheet
     let c : Instr := if h.counted then .outerIterationComplete p else .firingComplete p
     let r1 := { r with p := { r.p with seq := { r.p.seq with firings := rest } } }
     (f.ends = false → f.switch = false → Turns c s r r1) ∧
     (f.ends = true ∨ f.switch = true → (r.p.st = .running ∨ r.p.st = .draining) →
       (let h := sheetHeader r.p.seq.cache r.p.seq.cur
        let v := ((r.p.seq.visits[r.p.seq.cur]?).getD 0 + 1) % 65536
        let leave := h.exitAfter ≠ 0 ∧ v = h.exitAfter
        let t := if leave then h.exit else h.next
        let plain := h.counted = true ∧ h.foldEn = false
        (t < 8 → ¬ plain → Turns c s r { r1 with p := { r1.p with seq := { r1.p.seq with
          target := some t, visits := r.p.seq.visits.set r.p.seq.cur (if leave then 0 else v) } } }) ∧
        (t = 8 ∨ plain → (r.p.seq.gen ≠ none ∨ rest ≠ [] ∨ r.p.seq.ops ≠ []) → ∃ r', Turns c s r r' ∧ r'.p.seq.target = some 8 ∧
          r'.p.seq.ended = r.p.seq.ended ∧ r'.p.st = r.p.st ∧ r'.p.seq.gen = r.p.seq.gen) ∧
        (t = 8 ∨ plain → r.p.seq.gen = none → rest = [] → r.p.seq.ops = [] → ∃ r', Turns c s r r' ∧ r'.p.seq.ended = true ∧ r'.p.seq.target = none ∧
          (r.p.st = .running → r'.p.st = .quiescent) ∧ (r.p.st = .draining → r'.p.st = .draining))))))

/-- A switch saves the named tiles of the sheet it leaves, then restores those of the sheet it enters and makes that the current sheet; a sheet that
may not be entered faults the plot with cause 4. -/
def Obligations.SwitchesLeaveAndEnterSheets : Prop :=
  (∀ (s : State) (p : XY) (r : Run) (t : Nat), s.runAt p.x p.y = some r → r.p.seq.target = some t → t < 8 → r.p.live = true → r.p.seq.ops = [] →
    r.p.seq.firings = [] → r.p.seq.gen = none →
    (let h := sheetHeader r.p.seq.cache r.p.seq.cur
     (sheetBad r.p.seq.cache t = false → ∃ r', Turns (.sheetSwitch p) s r r' ∧ r'.p.seq.switching = some t ∧ r'.p.seq.cur = r.p.seq.cur ∧
       r'.p.tile0 = r.p.tile0 ∧ r'.p.tile1 = r.p.tile1 ∧ r'.p.loc = r.p.loc ∧ r'.pkts = r.pkts ∧ r'.p.mem = (r.p.saveTiles h).mem ∧
       (h.saveT0 = false → h.saveT1 = false → r'.p.mem = r.p.mem)) ∧
     (sheetBad r.p.seq.cache t = true → ∃ r', Turns (.sheetSwitch p) s r r' ∧ r'.p.st = .faulted ∧ r'.p.trap.fault.getLsbD 3 = true
       ∧ r'.p.mem = r.p.mem))) ∧
  (∀ (s : State) (p : XY) (r : Run) (t : Nat), s.runAt p.x p.y = some r → r.p.seq.switching = some t →
    (let h := sheetHeader r.p.seq.cache t
     ∃ r', Turns (.sheetSwitchDone p) s r r' ∧ r'.p.seq.cur = t ∧ r'.p.seq.inVisit = 0 ∧ r'.p.seq.switching = none ∧ r'.p.seq.target = none ∧
       r'.p.tile0 = (r.p.loadTiles h).tile0 ∧ r'.p.tile1 = (r.p.loadTiles h).tile1 ∧ r'.p.loc = r.p.loc ∧ r'.pkts = r.pkts ∧
       (h.saveT0 = false → r'.p.tile0 = r.p.tile0) ∧ (h.saveT1 = false → r'.p.tile1 = r.p.tile1)))

/-- Steering: a switch rule pops its token and its entry and sends the entry on the channel of the token's two low bits, or drops it when bit 1 is
set; a merge rule pops its token and an entry of the queue that bit 0 names and sends it; a rule whose output would go to a plot that does not exist
raises the address fault of R39 (its record: log entry 75) and takes nothing from its queues. A generation period that no finish closes delivers its
units and is closed, once its sheet has a target or the plot drains and nothing is in flight; a plot whose target is its end ends with it. Units that wait for
credit stay as an operation in flight (04 R171). -/
def Obligations.SteeringMovesEntriesAndPeriodsFlush : Prop :=
  (∀ (s : State) (p : XY) (r r1 r2 : Run) (rule : Nat) (tok e : Data), s.runAt p.x p.y = some r → r.p.steerLive = true →
    (let q := r.p.steerRule rule
     let moved := { r2 with p := { r2.p with watch := { r2.p.watch with moved := true } } }
     r.popQueue q.t = some (r1, tok) → (r.p.steerState q).1 = true → (r.p.steerTo q).bind r.badTarget = none →
     (q.kind = 1 → r1.popQueue q.d0 = some (r2, e) →
       Turns (.steeringSwitch p rule) s r
         (if tokenBits tok = 0 then moved.chanPut q.c0 e none else if tokenBits tok = 1 then moved.chanPut q.c1 e none else moved)) ∧
     (q.kind = 2 → r1.popQueue (if tokenBits tok % 2 = 0 then q.d0 else q.d1) = some (r2, e) →
       Turns (.steeringMerge p rule) s r (moved.chanPut q.c0 e none)))) ∧
  (∀ (s : State) (p : XY) (r : Run) (rule ta : Nat), s.runAt p.x p.y = some r → r.p.steerLive = true →
    ∀ e ∈ [(Instr.steeringSwitch p rule, 1), (Instr.steeringMerge p rule, 2)], (r.p.steerRule rule).kind = e.2 →
    (r.p.steerTo (r.p.steerRule rule)).bind r.badTarget = some ta →
    ∃ r', Turns e.1 s r r' ∧ r'.p.st = .faulted ∧ r'.p.trap.fault.getLsbD 2 = true ∧ r'.p.queues = r.p.queues) ∧
  (∀ (s : State) (p : XY) (r r2 : Run) (f2 : Flight) (g : GenPeriod), s.runAt p.x p.y = some r → r.p.seq.gen = some g → r.p.seq.ops = [] →
    r.p.seq.firings = [] → (r.p.st = .running ∧ r.p.seq.target.isSome = true ∨ r.p.st = .draining) →
    (let par := sheetFin r.p.seq.cache g.sheet
     let out := (par.periodUnits (Config.unitPad r.free) g.tiles).map cleanData
     let r1 := { r with p := { r.p with seq := { r.p.seq with gen := none, next := r.p.seq.next + 1 } }, free := r.free + 1 }
     (Run.deliverOut r1 (r.p.closeFlight g out) out = .on r2 f2 →
       (r.p.seq.target ≠ some 8 → Turns (.generationPeriodFlush p) s r r2) ∧
       (r.p.seq.target = some 8 → ∃ r', Turns (.generationPeriodFlush p) s r r' ∧ r'.p.seq.ended = true ∧ r'.p.seq.gen = none ∧ r'.p.mem = r2.p.mem ∧
         (r.p.st = .running → r'.p.st = .quiescent) ∧ (r.p.st = .draining → r'.p.st = .draining))) ∧
     (Run.deliverOut r1 (r.p.closeFlight g out) out = .stop r2 f2 → f2.work = true →
       Turns (.generationPeriodFlush p) s r { r2 with p := { r2.p with seq := { r2.p.seq with ops := r2.p.seq.ops ++ [f2] } } })))

/-! ## Arrivals, trees, upkeep (spec/06 to spec/09) -/

/-- A message of the named writer lands in an open queue with room as one entry of 32 bytes, zero-filled, and applies its signal; a closed queue
answers with a drop notice; one of another writer is discarded and counted. A ring message whose footprint fits before the ring's end is placed at
the tail; one that does not fit there is placed at the ring's start, behind a skip header at the tail whose units count as used (06 R230, R233), or are free at once where
the ring is empty; its payload is written as it comes; one that the ring has no room for, or that takes more than half of it, is discarded and counted. It lands when its header is
written: payload and header stand in memory (the header's source for a port stream: log entry 43), and the ring holds one message more; one that has lost a flit on its way does not land. -/
def Obligations.MessagesReachTheirReaders : Prop :=
  (∀ (s u : State) (n x y vc : Nat) (err : NetErr) (src : Place) (m : Message) (r : Run) (w : Writer), Comes s n err ⟨src, .plot x y, vc, .msg m⟩ u →
    u.runAt x y = some r → r.p.isReset = false → m.ring = false → r.p.writer m.index = some w → m.index < r.p.queues.length →
    (let q := r.p.queue m.index
     let e := Data.settle (m.data ++ List.replicate (32 - m.data.length) ((0 : Byte), false))
     (w.sent m = false → exec (.queueMessageArrival ⟨n, err⟩) s = .next ((u.putRun r.p r).discard (fieldOf x y))) ∧
     (w.sent m = true → q.closed = true → Lands (.queueMessageArrival ⟨n, err⟩) s u r (r.send ⟨r.here, w.place r.dev, 3, .drop w⟩)) ∧
     (w.sent m = true → q.closed = false → q.entries.length < 16 → m.data.length ≤ 32 → ∃ r', Lands (.queueMessageArrival ⟨n, err⟩) s u r r' ∧
       r'.p.queue m.index = { q with entries := q.entries ++ [e] } ∧ r'.p.cnt = r.p.cnt.bump cMsgIn 1 ∧ r'.p.mem = r.p.mem ∧
       r'.p.beacons = (r.p.applySignal m.signal).beacons ∧ r'.pkts = r.pkts ∧ (∀ k, k ≠ m.index → r'.p.queue k = r.p.queue k) ∧
       r'.p.rings = r.p.rings ∧ r'.p.chans = r.p.chans ∧ r'.p.loc = r.p.loc))) ∧
  (∀ (s u : State) (n x y vc : Nat) (err : NetErr) (src : Place) (m : Message) (r : Run) (w : Writer), Comes s n err ⟨src, .plot x y, vc, .msg m⟩ u →
    u.runAt x y = some r → r.p.isReset = false → m.ring = true → r.p.writer (16 + m.index) = some w → w.sent m = true →
    (r.p.ring m.index).landing = none → m.index < r.p.rings.length →
    (let g := r.p.ring m.index
     let size := ringUnits g.rsz
     let f := 1 + (m.data.length + 31) / 32
     (g.closed = true → Lands (.ringMessageStart ⟨n, err⟩) s u r (r.send ⟨r.here, w.place r.dev, 3, .drop w⟩)) ∧
     let skip := size - g.tail
     (g.closed = false → f ≤ skip → g.used + f ≤ size → 2 * f ≤ size → m.data ≠ [] →
       (let g' : Ring := { g with used := g.used + f, tail := (g.tail + f) % size, landing := some ⟨g.tail, f, m⟩ }
        Lands (.ringMessageStart ⟨n, err⟩) s u r { r with p := (r.p.memWrite (g.base + 32 * (g.tail + 1)) m.data).setRing m.index g' })) ∧
     (g.closed = false → skip < f → 0 < skip → g.used + skip + f ≤ size → 2 * f ≤ size → m.data ≠ [] →
       (let p1 := (r.p.memWrite (g.base + 32 * g.tail) (ringHeaderBytes 0 1 0 0 0)).memWrite (g.base + 32) m.data
        let g' : Ring := { g with used := g.used + f + skip, tail := f % size, landing := some ⟨0, f, m⟩ }
        ((g.used ≠ 0 ∨ g.head ≠ g.tail) → Lands (.ringMessageStart ⟨n, err⟩) s u r { r with p := p1.setRing m.index g' }) ∧
        (g.used = 0 → g.head = g.tail → Lands (.ringMessageStart ⟨n, err⟩) s u r
          (Run.freed { r with p := p1.setRing m.index { g' with used := f, head := 0 } } (16 + m.index) skip)))) ∧
     (g.closed = false → (size < g.used + (if f ≤ skip then 0 else skip) + f ∨ size < 2 * f) →
       exec (.ringMessageStart ⟨n, err⟩) s = .next ((u.putRun r.p r).discard (fieldOf x y))))) ∧
  (∀ (s : State) (p : XY) (r : Run) (k : Nat), s.runAt p.x p.y = some r → k < r.p.rings.length →
    (let g := r.p.ring k
     (g.landing = none → Turns (.ringMessageLand p k) s r r) ∧
     (∀ l, g.landing = some l → l.msg.short = true → Turns (.ringMessageLand p k) s r r) ∧
     (∀ l, g.landing = some l → l.msg.short = false → ∃ r', Turns (.ringMessageLand p k) s r r' ∧
       (let hd := ringHeaderBytes l.msg.data.length 0 ((g.pops + g.msgs) % 2 ^ 32)
          (globalAddr l.msg.srcDev (if l.msg.srcPort then 0 else l.msg.srcX) (if l.msg.srcPort then 0 else l.msg.srcY) 0)
          (l.msg.srcCh % 16 + (if l.msg.srcPort then 16 else 0))
        r'.p.mem = (r.p.mem.write (g.base + 32 * l.start) hd).mem) ∧
       r'.p.ring k = { g with msgs := g.msgs + 1, landing := none, left := if g.msgs = 0 then l.msg.data.length else g.left } ∧
       r'.p.beacons = (r.p.applySignal l.msg.signal).beacons ∧ r'.p.queues = r.p.queues ∧ r'.p.chans = r.p.chans ∧ r'.pkts = r.pkts)))

/-- Notices at a channel: a grant adds its units, up to 8,191 (the width of CREDIT; the bound is the model's, log entry 36); a close notice sets
CLOSED; a drop notice counts one drop; a plot that is IDLE or in TEST takes none (DEDUCED, log entry 41). At a port a grant of a stream is owed to the gateway. An image
write is taken only where the plot takes it, else it is discarded and counted. The Chartroom's write, its links' errors counted and its data marked by them (08 R296), changes
the plot's memory, then applies its signal; to a plot that does not work, or in a field with all four sides fenced (log entry 82), it is discarded and counted; it meets the
plot's ratioed crossing, which where it works changes nothing and where it fails can lose the write (08 R308). -/
def Obligations.NoticesAndWritesReachPlots : Prop :=
  ((∀ (s u : State) (n x y vc a : Nat) (err : NetErr) (src : Place) (r : Run) (w : Writer), u.runAt x y = some r →
     (let c := r.p.chan w.chanOf
      let put := fun (v : Channel) => if r.p.isReset then r else { r with p := r.p.setChan w.chanOf v }
      (Comes s n err ⟨src, .plot x y, vc, .grant w a⟩ u → Lands (.creditGrantArrival ⟨n, err⟩) s u r (put (c.setCredit (min 8191 (c.credit + a))))) ∧
      (Comes s n err ⟨src, .plot x y, vc, .close w⟩ u → ∃ v, Lands (.closeNoticeArrival ⟨n, err⟩) s u r (put v) ∧ v.closed = true ∧ v.credit = c.credit ∧
        v.kind = c.kind ∧ v.drops = c.drops) ∧
      (Comes s n err ⟨src, .plot x y, vc, .drop w⟩ u → ∃ v, Lands (.dropNoticeArrival ⟨n, err⟩) s u r (put v) ∧ v.drops = (c.drops + 1) % 2 ^ 32 ∧
        v.dest = c.dest ∧ v.msgs = c.msgs))) ∧
   (∀ (c : Channel) (n : Nat), n < 8192 → (c.setCredit n).credit = n ∧ (c.setCredit n).closed = c.closed ∧ (c.setCredit n).tx = c.tx) ∧
   (∀ (s u : State) (n q vc a : Nat) (err : NetErr) (src : Place) (w : Writer), Comes s n err ⟨src, .port q, vc, .grant w a⟩ u →
     exec (.creditGrantArrival ⟨n, err⟩) s = .next (u.oweStream q w.chanOf a))) ∧
  ((∀ (s u : State) (n x y vc parcel off : Nat) (err : NetErr) (src : Place) (d : Data) (r : Run), Comes s n err ⟨src, .plot x y, vc, .image parcel x y off d⟩ u →
     u.runAt x y = some r →
     (if r.p.takesImage parcel (u.parcel parcel) off d.length then Lands (.imageWriteArrival ⟨n, err⟩) s u r { r with p := r.p.memWrite off d }
      else exec (.imageWriteArrival ⟨n, err⟩) s = .next ((u.putRun r.p r).discard (fieldOf x y)))) ∧
   (∀ (s : State) (p : XY) (off : Nat) (d : Payload) (sig : Option Signal),
     (let c : Instr := .chartroomPlotWrite p off d sig
      let f := fieldOf p.x p.y
      ((s.field f).side = 0xF → exec c s = .next (s.discard f)) ∧
      ((s.field f).side ≠ 0xF → ∀ u o, (s.linkErrors f d.err).crossWrite p (Data.mar d.data d.err.poison) = (u, o) →
        (s.ratioOk f = true → u = s.linkErrors f d.err ∧ o = some (Data.mar d.data d.err.poison)) ∧
        (o = none → exec c s = .next u) ∧
        (∀ e, o = some e → u.runAt p.x p.y = none → exec c s = .next (u.discard f)) ∧
        (∀ e r, o = some e → u.runAt p.x p.y = some r →
          (if off + e.length ≤ 0x32000 then ∃ r', Lands c s u r r' ∧ r'.p.mem = (r.p.mem.write off e).mem ∧
             r'.p.beacons = (r.p.applySignal sig).beacons ∧ r'.p.queues = r.p.queues ∧ r'.p.loc = r.p.loc ∧ r'.pkts = r.pkts
           else Lands c s u r r))))))

/-- Tickets: an ask that finds an entry free is granted at once, one that finds none waits; a ticket nobody waits for goes back, and a held one goes
back when it was not used; a ticket that comes back frees its entry. Requests: one enters its controller's entries; the controller serves the one in
turn: a write changes edge memory to what the request holds, a read reads it, a retired stack changes nothing; a completion that keeps no ticket
writes the data of a read to the plot, and frees its tracker, with the move's signal, when no request of the move is left. A controller without
supply takes no ask, no ticket and no request: each is discarded and counted. -/
def Obligations.EdgeTicketsAndRequestsAreServed : Prop :=
  ((∀ (s u : State) (n c ph vc : Nat) (err : NetErr) (src dst : Place) (res : Bool), Comes s n err ⟨src, dst, vc, .ask ph c res⟩ u → c < u.emcs.length →
     u.clk.mem.up = true → (u.emc c).asks = [] → (u.emc c).shasks = [] → fieldOfPhys ph < 48 →
     ((2730 ≤ (u.emc c).holders.length → Answers (.controllerAskArrival ⟨n, err⟩) s fun t => (t.emc c).holders = (u.emc c).holders ∧
        (t.emc c).asks = (if res then [ph] else []) ∧ (t.emc c).shasks = (if res then [] else [ph]) ∧ t.stratus = u.stratus ∧ t.plots = u.plots) ∧
      ((u.emc c).holders.length < 2730 → Answers (.controllerAskArrival ⟨n, err⟩) s fun t => (t.emc c).holders = (u.emc c).holders ++ [ph] ∧
        (t.emc c).asks = [] ∧ (t.emc c).shasks = [] ∧ t.plots = u.plots ∧ t.edge = u.edge))) ∧
   (∀ (s u : State) (n c x y vc : Nat) (err : NetErr) (src : Place) (r : Run), Comes s n err ⟨src, .plot x y, vc, .ticket c⟩ u → u.runAt x y = some r →
     (let e := r.p.edge
      let had := { r with p := { r.p with edge := { e with asks := e.asks.set c false, tickets := e.tickets.modify c (· + 1) } } }
      (r.p.ticketWaiter c = none → ∃ r', Lands (.ticketGrantArrival ⟨n, err⟩) s u r r' ∧ r'.pkts = r.pkts ++ [⟨r.here, .emc c, 2, .giveBack r.phys c⟩] ∧
        r'.p.edge = { e with asks := e.asks.set c false }) ∧
      (∀ f, r.p.ticketWaiter c = some f → Lands (.ticketGrantArrival ⟨n, err⟩) s u r (had.goOn f)))) ∧
   (∀ (s : State) (p : XY) (r : Run) (c : Nat), s.runAt p.x p.y = some r → r.p.ticketWaiter c = none → (r.p.st = .running ∨ r.p.st = .draining) →
     0 < (r.p.edge.tickets[c]?).getD 0 → Turns (.ticketGiveBack p c) s r
       { r with p := { r.p with edge := { r.p.edge with tickets := r.p.edge.tickets.modify c (· - 1) } },
                pkts := r.pkts ++ [⟨r.here, .emc c, 2, .giveBack r.phys c⟩] }) ∧
   (∀ (s u : State) (n c ph vc : Nat) (err : NetErr) (src dst : Place), Comes s n err ⟨src, dst, vc, .giveBack ph c⟩ u → c < u.emcs.length → u.clk.mem.up = true → (u.emc c).asks = [] →
     (u.emc c).shasks = [] → exec (.giveBackArrival ⟨n, err⟩) s = .next (u.setEmc c { u.emc c with holders := (u.emc c).holders.erase ph }))) ∧
  ((∀ (s u : State) (n c vc : Nat) (err : NetErr) (src dst : Place) (q : EdgeReq), Comes s n err ⟨src, dst, vc, .request c q⟩ u →
     exec (.edgeRequestArrival ⟨n, err⟩) s = .next (if u.clk.mem.up then u.setEmc c { u.emc c with pool := (u.emc c).pool ++ [q] }
       else u.discard (u.placeField (.emc c)))) ∧
   (∀ (s u : State) (n c ph vc : Nat) (err : NetErr) (src dst : Place) (res : Bool), u.clk.mem.up = false →
     (Comes s n err ⟨src, dst, vc, .ask ph c res⟩ u → exec (.controllerAskArrival ⟨n, err⟩) s = .next (u.discard (u.placeField (.emc c)))) ∧
     (Comes s n err ⟨src, dst, vc, .giveBack ph c⟩ u → exec (.giveBackArrival ⟨n, err⟩) s = .next (u.discard (u.placeField (.emc c))))) ∧
   (∀ (s : State) (c : Nat) (q : EdgeReq) (rb : Robin), c < s.emcs.length →
     ((s.emcServes c = false → exec (.edgeServiceComplete c) s = .next s) ∧
      (s.emcServes c = true → (s.emc c).pick = none → exec (.edgeServiceComplete c) s = .next s) ∧
      (s.emcServes c = true → (s.emc c).pick = some (q, rb) → Answers (.edgeServiceComplete c) s fun t =>
        (t.emc c).pool = (s.emc c).pool.erase q ∧ t.plots = s.plots ∧ t.edge = (if (s.emc c).retired then s.edge
          else if q.write then (s.edge.write q.addr q.data).mem else (s.edge.read q.addr q.len).mem)))) ∧
   (∀ (s u : State) (n c x y vc : Nat) (err : NetErr) (src : Place) (r : Run) (q : EdgeReq) (t : Tracker), Comes s n err ⟨src, .plot x y, vc, .completion c q false⟩ u →
     u.runAt x y = some r → r.p.isReset = false → (r.p.st = .quiescent → r.p.watch.partialRec = false) →
     (r.p.edge.trackers.find? fun v => v.id == q.tracker) = some t → ∃ r', Lands (.edgeCompletionArrival ⟨n, err⟩) s u r r' ∧ r'.pkts = r.pkts ∧
       (q.write = true → r'.p.mem = r.p.mem) ∧
       (q.write = false → ∀ a, q.locals = [a] → r'.p.mem = (r.p.mem.write a (q.data.take 64)).mem) ∧
       (t.left ≤ 1 → r'.p.edge.trackers = r.p.edge.trackers.filter (fun v => v.id != t.id) ∧ r'.p.beacons = (r.p.applySignal t.signal).beacons) ∧
       (1 < t.left → r'.p.beacons = r.p.beacons ∧
         r'.p.edge.trackers = r.p.edge.trackers.map fun v => if v.id == t.id then { v with left := v.left - 1 } else v)))

/-- Upkeep of buckets, stacks and memories: a refill gives every bucket 64 bytes up to 512; a temperature reading of a stack with supply sets the levels of 85, 95 and 105
°C, the level past 95 that holds down to 90 (14 R472), and takes the squall cause of a critical stack away once none is (14 R477); a calibration window opens, and its controller serves
nothing; a controller without supply reads no temperature and opens no window; a scrub of a line without errors changes nothing in its memory, and one bit
flipped in it is put right and counted. -/
def Obligations.UpkeepRefillsReadsAndScrubs : Prop :=
  (∀ (s : State), s.canonical = true → Answers .shareBucketRefill s fun t => cellsWf Plot.reset t.plots = true ∧ { t with plots := s.plots } = s ∧
    ∀ ph, t.plot ph = { s.plot ph with edge := { (s.plot ph).edge with buckets := (s.plot ph).edge.buckets.map fun b => min 512 (b + 64) } }) ∧
  (∀ (s : State) (c d : Nat),
    (let t := s.setEmc c { s.emc c with temp := d % 256, halved := decide (85 ≤ d), hot := decide (95 ≤ d), crit := decide (105 ≤ d)
                                        tooHot := decide (95 ≤ d) || ((s.emc c).tooHot && decide (90 ≤ d)) }
     (s.emcUp c = false → exec (.stackTemperatureRead c d) s = .next s ∧ exec (.calibrationWindow c) s = .next s) ∧
     (s.emcUp c = true → exec (.stackTemperatureRead c d) s = .next (if t.emcs.any (·.crit) then t
       else { t with pwr := { t.pwr with causes := t.pwr.causes &&& ~~~(2 : BitVec 6) } })))) ∧
  (∀ (s : State) (c : Nat), c < s.emcs.length → s.emcUp c = true → Answers (.calibrationWindow c) s fun t => t.emcServes c = false ∧ (t.emc c).calibrate = false ∧
    (t.emc c).pool = (s.emc c).pool ∧ { t with emcs := s.emcs } = s) ∧
  (∀ (s : State) (ph line w b : Nat) (flip : Bool), physOk ph = true → s.powered (fieldOfPhys ph) = true → line < 3328 → w < 8 → b < 64 →
    (s.plot ph).mem.wf = true → (∀ j, j < 8 → cellGet 0 (s.plot ph).mem.syn (8 * line + j) = 0) →
    Answers (.padScrub ph line (if flip then [⟨64 * line + 8 * w, 1#64 <<< b, 0⟩] else [])) s fun t => (t.plot ph).mem = (s.plot ph).mem ∧
      (t.plot ph).cnt = (if flip then (s.plot ph).cnt.bump cEccCorr 1 else (s.plot ph).cnt) ∧ t.edge = s.edge ∧ t.stratus = s.stratus) ∧
  (∀ (s : State) (c a w b : Nat) (flip : Bool), c < s.emcs.length → s.emcServes c = true → (s.emc c).scrubEn = true → (s.emc c).retired = false → a % 64 = 0 →
    edgePresent a = true → (edgePlace a).1 = c → w < 8 → b < 64 → edgePresent (a + 8 * w) = true → (edgePlace (a + 8 * w)).1 = c → s.edge.wf = true →
    (∀ j, j < 8 → cellGet 0 s.edge.syn (a / 8 + j) = 0) →
    Answers (.edgeScrub c a (if flip then [⟨a + 8 * w, 1#64 <<< b, 0⟩] else [])) s fun t => t.edge = s.edge ∧ t.plots = s.plots ∧
      (t.emc c).cnt = (if flip then (s.emc c).cnt.bump 0 1 else (s.emc c).cnt))

/-- A tally that reaches an active interior node adds to its tally and count by the tree's operation; the one that makes the count full goes on to
the parent or, at the root, completes the phase and returns down, with MEMBER_LOST where the root has lost a member (07 R260), whose arrival it no longer awaits (log entry
24); at an inactive node it is held. A return completes the phase of each node it passes and reaches a leaf, whose phase it ends. A tally or return
with a parity error is counted and faults its tree's parcel; one that comes where its tree is lost is discarded and counted (08 R305, 13 R455). -/
def Obligations.TalliesRiseAndReturn : Prop :=
  (∀ (s : State) (n ph : Nat) (t : TallyPkt) (v : Slot), s.nimbus[n]? = some t → t.kind = 0 →
    (let u := { s with nimbus := s.nimbus.eraseIdx n }
     let total := match v.oper with | 1 => v.tally ||| t.tally | 2 => max v.tally t.tally | _ => min 0xFFFF (v.tally + t.tally)
     let node : Node := ⟨t.x, t.y, ph, t.slot, v⟩
     exec (.tallyArrival n false) s = .next ((u.countNet (fieldOf t.x t.y) 3 1).faultTree t.tree t.x t.y) ∧
     (∀ f, u.tallyStop t = some f → exec (.tallyArrival n true) s = .next (u.discard f)) ∧
     (u.tallyStop t = none → u.slotFor t.x t.y t.slot t.tree = some (ph, v) → v.lost ≠ 0 → exec (.tallyArrival n true) s = .next (u.discard (fieldOf t.x t.y))) ∧
     (u.tallyStop t = none → u.slotFor t.x t.y t.slot t.tree = some (ph, v) → v.role ≠ 1 → v.lost = 0 →
       (v.active = false → exec (.tallyArrival n true) s = .next (u.setSlotAt ph t.slot { v with held := v.held ++ [t] })) ∧
       (v.active = true → v.count + 1 < v.awaits →
         exec (.tallyArrival n true) s = .next (u.setSlotAt ph t.slot (v.setCount (v.count + 1) total))) ∧
       (v.active = true → v.awaits ≤ v.count + 1 → v.root = true → exec (.tallyArrival n true) s =
         .next ((u.setSlotAt ph t.slot ((v.setCount 0 0).complete total v.endStatus)).returnDown node total v.endStatus)) ∧
       (v.active = true → v.awaits ≤ v.count + 1 → v.root = false → ∀ m, parentOf ((u.setSlotAt ph t.slot (v.setCount 0 0)).nodes v.tree) node = some m →
         exec (.tallyArrival n true) s = .next ((u.setSlotAt ph t.slot (v.setCount 0 0)).putTally ⟨t.x, t.y, m.x, m.y, m.k, 0, v.tree, 0, total⟩))))) ∧
  (∀ (s : State) (n ph : Nat) (t : TallyPkt) (v : Slot), s.nimbus[n]? = some t → t.kind = 1 → s.slotFor t.x t.y t.slot t.tree = some (ph, v) →
    (let u := { s with nimbus := s.nimbus.eraseIdx n }
     let bad := (u.countNet (fieldOf t.x t.y) 3 1).faultTree t.tree t.x t.y
     (v.role ≠ 1 → exec (.tallyReturnArrival ⟨n, false⟩) s = .next bad) ∧ (v.role = 1 → exec (.leafReturn ⟨n, false⟩) s = .next bad) ∧
     (u.tallyStop t = none → v.lost ≠ 0 →
       (v.role ≠ 1 → exec (.tallyReturnArrival ⟨n, true⟩) s = .next (u.discard (fieldOf t.x t.y))) ∧
       (v.role = 1 → exec (.leafReturn ⟨n, true⟩) s = .next (u.discard (fieldOf t.x t.y)))) ∧
     (u.tallyStop t = none → v.lost = 0 → v.active = true →
       (v.role ≠ 1 → exec (.tallyReturnArrival ⟨n, true⟩) s =
         .next ((u.setSlotAt ph t.slot (v.complete t.tally t.status)).returnDown ⟨t.x, t.y, ph, t.slot, v⟩ t.tally t.status)) ∧
       (v.role = 1 → exec (.leafReturn ⟨n, true⟩) s = .next (u.setPlot ph ((u.plot ph).leafDone t.slot t.tally t.status)))))) ∧
  (∀ (v : Slot), v.awaits = v.expect - v.gone.length ∧ v.endStatus = if v.gone = [] then 0 else 2) ∧
  (∀ (v : Slot) (res st : Nat), (v.complete res st).phase = (v.phase + 1) % 65536 ∧ (v.complete res st).result = res % 65536 ∧
    (v.complete res st).status = st % 4 ∧ (v.complete res st).tree = v.tree)

/-- A lost tree (its owner and members are free functions of its number, log entry 20): at a member, by a notice that has come or by the timeout of a route to the owner that is not there, every slot of it that a broadcast reaches completes its
pending phase with OWNER_LOST; by the broadcast of a lost field with MEMBER_LOST, for every tree with a node in that field. The owner's root, told of
a lost member by a notice or by the timeout of that member's route, completes the phase that has arrivals with what has reached it and MEMBER_LOST, and every later one with MEMBER_LOST
(07 R260; TalliesRiseAndReturn says so of the arrivals); that it awaits one arrival less for each member lost, once each, is the model's choice (log entry 24). A route that stands, a loss notice that has not come, and the broadcast
of a field that is not lost, do nothing. -/
def Obligations.LostTreesCompleteTheirPhases : Prop :=
  (∀ (s : State) (tr : Nat), s.canonical = true → ((s.nodes tr).any fun n => n.slot.role == 5) = false →
    (((s.nodes tr).any fun n => n.slot.spans) = true → Config.treeOwner tr ≠ s.regs.device → s.hasRoute (Config.treeOwner tr) = false →
      Answers (.ownerRouteTimeout tr) s fun t => { t with plots := s.plots } = s ∧ (∀ n ∈ s.nodes tr, s.selects .all n.phys = true →
        LostSlot n.slot ((t.plot n.phys).slot n.k) 1)) ∧
    (Config.treeOwner tr ≠ s.regs.device → s.hasRoute (Config.treeOwner tr) = true → exec (.ownerRouteTimeout tr) s = .next s) ∧
    (((s.nodes tr).any fun n => n.slot.spans) = false → exec (.ownerRouteTimeout tr) s = .next s) ∧
    (∀ m, (s.notices.find? fun n => n.1 == tr) = some m → Answers (.lossNoticeArrival tr) s fun t => { t with plots := s.plots, notices := s.notices } = s ∧
      t.notices = s.notices.erase m ∧ (∀ n ∈ s.nodes tr, s.selects .all n.phys = true → LostSlot n.slot ((t.plot n.phys).slot n.k) 1))) ∧
  (∀ (s : State) (tr : Nat) (n : Node), ((s.nodes tr).find? fun m => m.slot.role == 5) = some n → n.k < (s.plot n.phys).slots.length →
    (∀ m, (s.notices.find? fun n => n.1 == tr) = some m →
      (let u := { s with notices := s.notices.erase m }
       (m.2 ∈ n.slot.gone → exec (.lossNoticeArrival tr) s = .next u) ∧
       (m.2 ∉ n.slot.gone → n.slot.count = 0 →
         exec (.lossNoticeArrival tr) s = .next (u.setSlotAt n.phys n.k { n.slot with gone := n.slot.gone ++ [m.2] })) ∧
       (m.2 ∉ n.slot.gone → 0 < n.slot.count → n.slot.root = true → Answers (.lossNoticeArrival tr) s fun t =>
         (let v := (t.plot n.phys).slot n.k
          v.phase = (n.slot.phase + 1) % 65536 ∧ v.result = n.slot.tally ∧ v.status = 2 ∧ v.count = 0 ∧ v.gone = n.slot.gone ++ [m.2]) ∧ t.edge = s.edge))) ∧
    (s.canonical = true → Config.treeOwner tr = s.regs.device → n.slot.spans = true → Answers (.ownerRouteTimeout tr) s fun t =>
      ∀ d, d ∈ ((t.plot n.phys).slot n.k).gone ↔ d ∈ n.slot.gone ∨ (d ∈ Config.treeMembers tr ∧ d ≠ s.regs.device ∧ s.hasRoute d = false))) ∧
  (∀ (s : State) (tr : Nat), (s.notices.find? fun n => n.1 == tr) = none → exec (.lossNoticeArrival tr) s = .next s) ∧
  (∀ (s : State) (f : Nat), (s.powered f = true ∧ (s.field f).fenced = false) → exec (.treeLossBroadcast f) s = .next s) ∧
  (∀ (s : State) (f tr : Nat), s.canonical = true → s.serves .theodolite = true → (s.powered f = false ∨ (s.field f).fenced = true) →
    (∃ m ∈ s.nodes tr, fieldOfPhys m.phys = f) →
    Answers (.treeLossBroadcast f) s fun t => { t with plots := s.plots } = s ∧ (∀ n ∈ s.nodes tr, s.selects .all n.phys = true →
      LostSlot n.slot ((t.plot n.phys).slot n.k) 2))

/-! ## Registers and ports of access (spec/02, spec/08, spec/11, spec/15) -/

/-- Register accesses: a write of a plot's beacon replaces it, or is refused, with WRITE_REFUSED, while the plot refuses writes (which offsets: log entry 44); a write of every other register of its control
space that is not read-only changes its fields alone, flags by a 1 clearing them, a reserved code leaving its field (00 R12); an 8-byte write that
it refuses in either half does nothing else; a field, plot, controller or port without power takes nothing, nor do those and the switch but for Isobar's own while Theodolite does not serve (15 R505); a switch entry takes its 12 bits; a page
reaches the plot it selects, or, the debug level allowing it or not (log entry 29), answers all ones and sets its FAILED bit; CWIN_SEL keeps FAILED until a write of 1 clears it. An access of the host
while it does not reach the module changes nothing. -/
def Obligations.RegisterAccessesReachTheirRegisters : Prop :=
  (∀ (s : State) (ph b x page : Nat), physOk ph = true → s.powered (fieldOfPhys ph) = true → b < 32 → x < 2 ^ 32 →
    (let c : Instr := .registerWrite (.plot ph (0x800 + 4 * b)) (leBytes 4 x)
     let w : Instr := .pagedWrite page (0x800 + 4 * b) (leBytes 4 x) .answered
     ∀ i, (i = c ∨ i = w ∧ s.hostUp = true ∧ s.pageReach page s.invasive .answered = some ph) → Answers i s fun t =>
       if (s.plot ph).refuses (s.view ph) (0x800 + 4 * b) then
         t.plot ph = { s.plot ph with writeRefused := true } ∧ (i = w → (cellGet 0 t.hif.cwin page).getLsbD 23 = true)
       else t.plot ph = { s.plot ph with beacons := (s.plot ph).beacons.set b (x % 65536) } ∧ t.hif = s.hif)) ∧
  (∀ (s : State) (ph off : Nat) (x : W64), physOk ph = true → s.powered (fieldOfPhys ph) = true → off < 4096 → off % 8 = 0 →
    ((s.plot ph).refuses (s.view ph) off = true ∨ (s.plot ph).refuses (s.view ph) (off + 4) = true) →
    Answers (.registerWrite (.plot ph off) (leBytes 8 x.toNat)) s fun t => t.plot ph = { s.plot ph with writeRefused := true } ∧
      { t with plots := s.plots } = s) ∧
  (∀ (s : State) (ph x : Nat), physOk ph = true → s.powered (fieldOfPhys ph) = true → x < 2 ^ 32 →
    (let p := s.plot ph
     let put := fun (off : Nat) (q : Plot) => p.refuses (s.view ph) off = false → Answers (.registerWrite (.plot ph off) (leBytes 4 x)) s fun t =>
       t.plot ph = q ∧ { t with plots := s.plots, dbg := s.dbg } = s
     (put 0x010 { p with writeRefused := p.writeRefused && !x.testBit 0, windowPoison := p.windowPoison && !x.testBit 1 } ∧
      put 0x104 { p with seq := { p.seq with sel := x % 8 } } ∧
      put 0x200 { p with trap := { p.trap with fault := p.trap.fault &&& ~~~(BitVec.ofNat 5 x) } } ∧
      put 0x210 (if x.testBit 0 then { p with trap := { p.trap with info := p.trap.info &&& ~~~(1 : W32) } } else p) ∧
      put 0x480 { p with qview := x % 16 } ∧ put 0x884 { p with group := { p.group with flags := p.group.flags &&& ~~~(BitVec.ofNat 6 x) } } ∧
      put 0xC00 { p with accSel := x % 128 } ∧ put 0xC40 { p with memAddr := x % 2 ^ 18 / 64 * 64 } ∧
      put 0xD80 (if 1 ≤ s.dbg.level then { p with trace := { p.trace with ctl := BitVec.ofNat 5 x } } else p) ∧
      (s.invasive = false → p.fence = x.testBit 3 → put 0x00C { p with nanTrap := x.testBit 0, underSurvey := x.testBit 4 })) ∧
     (∀ i, i < 16 → put (0x900 + 4 * i) { p with legend := p.legend.take (4 * i) ++ leBytes 4 x ++ p.legend.drop (4 * i + 4) }) ∧
     (∀ i, i < 64 → put (0xA00 + 8 * i) { p with loc := p.loc.modify i fun w => BitVec.ofNat 64 (w.toNat / 2 ^ 32 * 2 ^ 32 + x) } ∧
       put (0xA04 + 8 * i) { p with loc := p.loc.modify i fun w => BitVec.ofNat 64 (w.toNat % 2 ^ 32 + x * 2 ^ 32) }) ∧
     (∀ k, k < 16 → (let c := p.chan k
       put (0x500 + 32 * k) (p.setChan k { c with dest := BitVec.ofNat 64 (c.dest.toNat / 2 ^ 32 * 2 ^ 32 + if x % 4 = 3 then x / 4 * 4 + c.kind else x) }) ∧
       put (0x504 + 32 * k) (p.setChan k { c with dest := BitVec.ofNat 64 (c.dest.toNat % 2 ^ 32 + x * 2 ^ 32) }) ∧
       put (0x508 + 32 * k) (p.setChan k (if x % 16 ≤ 10 then { c with rsz := x % 16 } else c)))) ∧
     (∀ k, k < 8 → (let g := p.ring k
       put (0x700 + 32 * k) (p.setRing k { g with base := if x % 32 = 0 then x % 2 ^ 18 else g.base
                                                  rsz := if bitsOf x 21 18 ≤ 10 then bitsOf x 21 18 else g.rsz
                                                  enable := x.testBit 22 }))))) ∧
  (∀ (s : State) (i : Nat) (d : List Byte), s.serves .theodolite = false → (∀ off, off ≠ 0x200 → off ≠ 0x204 → exec (.registerWrite (.field i off) d) s = .next s) ∧
    ∀ off, exec (.registerWrite (.emc i off) d) s = .next s ∧ exec (.registerWrite (.port i off) d) s = .next s ∧
      exec (.registerWrite (.switch off) d) s = .next s) ∧
  (∀ (s : State) (ph f off : Nat) (d : List Byte), (s.powered (fieldOfPhys ph) = false → exec (.registerWrite (.plot ph off) d) s = .next s) ∧
    (s.powered f = false → exec (.registerWrite (.field f off) d) s = .next s) ∧
    (s.emcUp f = false → exec (.registerWrite (.emc f off) d) s = .next s) ∧ (s.portUp f = false → exec (.registerWrite (.port f off) d) s = .next s)) ∧
  (∀ (s : State) (off n : Nat) (d : List Byte) (x : W32) (way : Cirrus), s.hostUp = false → exec (.registerWrite (.bar0 off) d) s = .next s ∧
    exec (.registerWrite (.config off) d) s = .next s ∧ exec (.pagedWrite n off d way) s = .next s ∧ exec (.cwinSelWrite n x) s = .next s) ∧
  (∀ (s : State) (dev x : Nat), dev < 1024 → x < 2 ^ 32 → s.clk.link.up = true → s.serves .theodolite = true → Answers (.registerWrite (.switch (4 * dev)) (leBytes 4 x)) s fun t =>
    { t with regs := s.regs } = s ∧ ∀ e, cellGet 0 t.regs.modroute e = if e = dev then BitVec.ofNat 32 (x % 4096) else cellGet 0 s.regs.modroute e) ∧
  (∀ (s : State) (page off : Nat) (way : Cirrus), off % 4 = 0 → off < 4096 → s.hostUp = true →
    (∀ ph, s.pageReach page (decide (1 ≤ s.dbg.level)) way = some ph → (off < 0xC80 ∨ 0xCC0 ≤ off) → Answers (.pagedRead page off 4 way) s fun t =>
      t.out = leBytes 4 ((s.plot ph).ctrlWord (s.view ph) off) ∧ t.hif = s.hif ∧ ∀ q, t.plot q = s.plot q) ∧
    (s.pageReach page (decide (1 ≤ s.dbg.level)) way = none → Answers (.pagedRead page off 4 way) s fun t =>
      t.out = List.replicate 4 0xFF ∧ (cellGet 0 t.hif.cwin page).getLsbD 23 = true ∧ t.plots = s.plots) ∧
    (s.pageReach page s.invasive way = none → ∀ d, d.length = 4 → Answers (.pagedWrite page off d way) s fun t =>
      (cellGet 0 t.hif.cwin page).getLsbD 23 = true ∧ t.plots = s.plots)) ∧
  (∀ (s : State) (n : Nat) (x : W32), n < 1024 → s.hostUp = true → Answers (.cwinSelWrite n x) s fun t =>
    { t with hif := { t.hif with cwin := s.hif.cwin } } = s ∧ (cellGet 0 t.hif.cwin n).toNat = x.toNat % 2 ^ 23 +
      (if (cellGet 0 s.hif.cwin n).getLsbD 23 && !x.getLsbD 23 then 2 ^ 23 else 0) ∧ ∀ k, k ≠ n → cellGet 0 t.hif.cwin k = cellGet 0 s.hif.cwin k)

/-- The windows and the control bits of a plot with power: the memory window reads and writes the line of MEM_ADDR, ACC_DATA replaces one quarter of
the word ACC_SEL names; halt and step act at Invasive only, and are marked, and a halt's change of what is quiescent counts in the drain's interval (05 R206); a fence set makes the plot FENCED, one cleared, unless the plot is dead,
makes it IDLE, each one change of the gazetteer. -/
def Obligations.WindowsHaltsAndFencesAct : Prop :=
  (∀ (s : State) (ph off n : Nat) (x : W64), physOk ph = true → s.powered (fieldOfPhys ph) = true → (n = 4 ∨ n = 8) → off % n = 0 → off + n ≤ 64 →
    (let p := s.plot ph
     let a := p.memAddr + off
     a + n ≤ 0x34000 → a < 0x34000 →
     (Answers (.memWindowRead ph off n) s fun t => t.out = (p.mem.read a n).data.map (·.1) ∧ (t.plot ph).mem = (p.mem.read a n).mem ∧
       t.edge = s.edge ∧ t.stratus = s.stratus) ∧
     (p.refuses (s.view ph) (0xC80 + off) = false → Answers (.memWindowWrite ph off n x) s fun t =>
       (t.plot ph).mem = (p.mem.write a (cleanData (leBytes n x.toNat))).mem ∧ (t.plot ph).beacons = p.beacons ∧ t.edge = s.edge) ∧
     (p.refuses (s.view ph) (0xC80 + off) = true → Answers (.memWindowWrite ph off n x) s fun t =>
       (t.plot ph).mem = p.mem ∧ (t.plot ph).writeRefused = true))) ∧
  (∀ (s : State) (ph off n : Nat), physOk ph = true → s.powered (fieldOfPhys ph) = false → (n = 4 ∨ n = 8) → off % n = 0 → off + n ≤ 64 →
    exec (.memWindowRead ph off n) s = .next { s with out := List.replicate n 0xFF }) ∧
  (∀ (s : State) (ph q : Nat) (x : W64), physOk ph = true → s.powered (fieldOfPhys ph) = true → q < 4 →
    (let p := s.plot ph
     let k := p.accSel / 2
     p.refuses (s.view ph) (0xC10 + 4 * q) = false → k < (p.tile (p.accSel % 2)).length → Answers (.accDataWrite ph (4 * q) 4 x) s fun t =>
       (∀ j, j < 4 → ((((t.plot ph).tile (p.accSel % 2))[k]?).getD 0).toNat / 2 ^ (32 * j) % 2 ^ 32 =
         if j = q then x.toNat % 2 ^ 32 else (((p.tile (p.accSel % 2))[k]?).getD 0).toNat / 2 ^ (32 * j) % 2 ^ 32) ∧
       (∀ i, i ≠ k → ((t.plot ph).tile (p.accSel % 2))[i]? = (p.tile (p.accSel % 2))[i]?) ∧
       (t.plot ph).tile (1 - p.accSel % 2) = p.tile (1 - p.accSel % 2) ∧ (t.plot ph).mem = p.mem)) ∧
  (∀ (s : State) (ph : Nat) (v : Bool), physOk ph = true → s.powered (fieldOfPhys ph) = true →
    (s.invasive = false → exec (.haltReq ph v) s = .next s ∧ exec (.step ph) s = .next s) ∧
    (s.invasive = true → (s.plot ph).haltReq ≠ v → Answers (.haltReq ph v) s fun t => (t.plot ph).haltReq = v ∧ (t.plot ph).seq.halted = v ∧
      (t.plot ph).seq.ops = (s.plot ph).seq.ops ∧ (t.plot ph).watch.quiet = ((s.plot ph).watch.quiet && (t.plot ph).quiescentNow) ∧ t.dbg.invasiveUsed = true ∧ (t.plot ph).mem = (s.plot ph).mem) ∧
    (s.invasive = true → (s.plot ph).seq.halted = true → Answers (.step ph) s fun t => t.plot ph =
      { s.plot ph with seq := { (s.plot ph).seq with stepOne := true } } ∧ t.dbg.invasiveUsed = true)) ∧
  (∀ (s : State) (ph : Nat), physOk ph = true → s.powered (fieldOfPhys ph) = true →
    ((s.plot ph).fence = false → Answers (.fenceSet ph) s fun t => (t.plot ph).st = .fenced ∧ (t.plot ph).fence = true ∧
      t.nv.survey.version = s.nv.survey.version + 1 ∧ s.alive ph = !s.isDead ph ∧ t.alive ph = false) ∧
    ((s.plot ph).fence = true → (s.plot ph).test.dead = false → s.isDead ph = false → Answers (.fenceClear ph) s fun t =>
      (t.plot ph).st = .idle ∧ (t.plot ph).fence = false ∧ t.nv.survey.version = s.nv.survey.version + 1) ∧
    ((s.plot ph).fence = true → exec (.fenceSet ph) s = .next s) ∧
    (((s.plot ph).fence = false ∨ s.isDead ph = true) → exec (.fenceClear ph) s = .next s))

/-- Module registers: PLACE, TORUS and PORT_ROLE are taken while no parcel is loaded, reserved role codes leaving their port's role (DESIGN CHOICE, log entry 93), and refused else; a
budget of 1,000 to 40,000 W is taken, and the lesser of it and the coolant allowance comes into force (no allowance before a first coolant reading,
log entry 52); RETIRE retires the stack of a controller that is up; RETRAIN and DISABLE act on a port that is up; these take effect while Theodolite serves (15 R505); reading WG_LOST_SRC clears it,
reading FIELD_FIRST clears its VALID bit, and what has no supply answers nothing (01 R36). -/
def Obligations.ModuleRegistersTakeTheirWrites : Prop :=
  (∀ (s : State) (x : W32), s.hostUp = true → s.parcels = [] →
    (Answers (.placeDeviceIdWrite x) s fun t => t.regs.device = x.toNat % 1024 ∧ t.regs.written = true ∧ t.regs.torus = s.regs.torus ∧
      t.regs.placeRefused = (s.regs.placeRefused && !x.toNat.testBit 16) ∧ t.plots = s.plots ∧
      ∀ p, p < 16 → p < s.ports.length → (s.port p).st = .active → (t.port p).st = .identify) ∧
    (Answers (.torusWrite x) s fun t => t.regs.torus = BitVec.ofNat 13 x.toNat ∧ t.regs.device = s.regs.device ∧ t.plots = s.plots)) ∧
  (∀ (s : State) (x : W32), s.hostUp = true → s.parcels ≠ [] →
    exec (.placeDeviceIdWrite x) s = .next { s with regs := { s.regs with placeRefused := true } } ∧
    exec (.torusWrite x) s = .next { s with regs := { s.regs with torusRefused := true } } ∧
    ∀ v, exec (.portRoleWrite v) s = .next { s with regs := { s.regs with torusRefused := true } }) ∧
  (∀ (s : State) (v : W64), s.hostUp = true → s.parcels = [] → Answers (.portRoleWrite v) s fun t => t.plots = s.plots ∧ t.regs.device = s.regs.device ∧
    ∀ i, i < 16 → bitsOf t.regs.role.toNat (4 * i + 3) (4 * i) =
      (let r := bitsOf v.toNat (4 * i + 3) (4 * i)
       if r < 8 then r else bitsOf s.regs.role.toNat (4 * i + 3) (4 * i))) ∧
  (∀ (s : State) (x : W32), s.hostUp = true →
    (let w := x.toNat % 65536
     (1000 ≤ w → w ≤ 40000 → exec (.pwrBudgetWrite x) s = .next { s with pwr := { s.pwr with
       sustain := w, inForce := min w (if s.pwr.coolant then allowance s.pwr.inlet s.pwr.flow else 40000) } }) ∧
     ((w < 1000 ∨ 40000 < w) → exec (.pwrBudgetWrite x) s = .next s))) ∧
  (∀ (s : State) (c p : Nat), (s.serves .theodolite = false ∨ (s.emcUp c = false ∧ s.portUp p = false)) → exec (.emcRetireWrite c) s = .next s ∧
    exec (.wgRetrainWrite p) s = .next s ∧ ∀ v, exec (.wgDisableWrite p v) s = .next s) ∧
  (∀ (s : State) (c : Nat), c < 24 → c < s.emcs.length → s.emcUp c = true → s.serves .theodolite = true →
    ((s.emc c).retired = true → exec (.emcRetireWrite c) s = .next (s.setEmc c { s.emc c with retire := true })) ∧
    ((s.emc c).retired = false → Answers (.emcRetireWrite c) s fun t => (t.emc c).retired = true ∧ (t.emc c).retire = true ∧
      t.nv.survey.version = s.nv.survey.version + 1 ∧ c ∈ t.nv.survey.retired ∧ t.plots = s.plots ∧ t.edge = s.edge)) ∧
  (∀ (s : State) (p : Nat), p < s.ports.length → s.portUp p = true → s.serves .theodolite = true →
    ((s.port p).st ≠ .active → exec (.wgRetrainWrite p) s = .next s) ∧
    ((s.port p).st = .active → Answers (.wgRetrainWrite p) s fun t => (t.port p).st = .retrain ∧ (t.port p).cnt = (s.port p).cnt.bump 2 1 ∧
      (t.port p).waiting = (s.port p).waiting ∧ (t.port p).replay = (s.port p).replay ∧ t.plots = s.plots) ∧
    ((s.port p).st ≠ .off → Answers (.wgDisableWrite p true) s fun t => (t.port p).st = .off ∧ (t.port p).disable = true ∧ (t.port p).replay = [] ∧
      t.plots = s.plots) ∧
    (Answers (.wgLostSrcRead p) s fun t => t.out = leBytes 8 (s.port p).lostSrc.toNat ∧
      { t with out := s.out } = s.setPort p { s.port p with lostSrc := 0 })) ∧
  (∀ (s : State) (p : Nat), s.portUp p = false → exec (.wgLostSrcRead p) s = .next s) ∧
  (∀ (s : State) (f : Nat), (s.powered f = false → exec (.fieldFirstRead f) s = .next s) ∧
    (s.powered f = true → exec (.fieldFirstRead f) s = .next { (s.setField f { s.field f with first := (s.field f).first &&& ~~~(0x200000 : W32) })
      with out := leBytes 4 (s.field f).first.toNat }))

/-- The sounding port while it is served: each read answers its block, of the module as it stands; a squall request or withdrawal, or a budget,
whose PEC is right takes effect, one whose PEC is wrong is not acknowledged and changes nothing else; ALERT_SRC clears as it is read, but for what
is still present; the alert response answers while an alert stands (both: DEDUCED, log entry 63). While the port is not served it acknowledges nothing. The byte layout of a block
on the wire is the model's (log entry 60). -/
def Obligations.SoundingPortAnswersAndActs : Prop :=
  (∀ (s : State), s.sounds = true →
    (let read := fun (c : Instr) (b : List Byte) => exec c s = .next { s with out := b, nack := false }
     read .soundingIdentityRead (leBytes 2 0x100 ++ leBytes 2 s.regs.device ++ leBytes 4 s.devStatus) ∧
     read (.soundingPowerRead 1) (leBytes 4 s.pwrState) ∧
     read (.soundingPowerRead 2) (leBytes 4 (s.pwr.mainMv % 65536 + s.pwr.standbyMv % 65536 * 2 ^ 16)) ∧
     read (.soundingPowerRead 3) (leBytes 4 (s.pwr.mainW % 65536 + s.pwr.avgW % 65536 * 2 ^ 16)) ∧
     read (.soundingPowerRead 4) (leBytes 4 s.pwr.events.toNat) ∧
     read (.soundingPowerRead 5) (leBytes 4 s.coolantWord) ∧
     read .soundingTemperatureRead (s.fields.map fun (v : Field) => BitVec.ofNat 8 v.hottest) ∧
     read (.soundingResetClockRead 7) (leBytes 4 s.resetCause) ∧ read (.soundingResetClockRead 8) (leBytes 4 s.clkStatus) ∧
     (∀ n, n ≤ 8 → read (.soundingStageRead (0x10 + n)) (s.stageBytes n)) ∧
     read .soundingBudgetRead (leBytes 2 s.pwr.sustain) ∧
     (s.dbg.alert ≠ 0 → read .alertResponseAddress (leBytes 1 (2 * (0x58 + s.dbg.sampled % 4)))) ∧
     (Answers .alertSrcRead s fun t => t.out = leBytes 4 s.dbg.alert.toNat ∧ t.nack = false ∧ t.dbg.alert = s.alertNow ∧ t.pwr = s.pwr ∧
       t.plots = s.plots) ∧
     (Answers (.squallRequest true) s fun t => t.nack = false ∧ t.pwr.causes = s.pwr.causes ||| 32 ∧
       (s.main = true → t.pwr.state = .squall ∧ t.pwr.netPoint = 7 ∧ ∀ f, f < s.fields.length → (s.field f).live = true →
         (t.field f).point = 7 ∧ (t.field f).squalled = true) ∧
       (s.main = false → { t with pwr := s.pwr, out := s.out, nack := s.nack } = s ∧ t.pwr.state = s.pwr.state)) ∧
     exec (.squallWithdraw true) s = .next { s with pwr := { s.pwr with causes := s.pwr.causes &&& ~~~32 }, out := [], nack := false } ∧
     (∀ w : W16, exec (.soundingBudgetWrite w true) s = .next { s.budgetWrite w.toNat with out := [], nack := false }))) ∧
  (∀ (s : State) (c : Instr), (c ∈ [Instr.squallRequest false, .squallWithdraw false, .soundingBudgetWrite 0 false] ∨
    (s.sounds = false ∧ c ∈ [Instr.soundingIdentityRead, .soundingPowerRead 1, .soundingTemperatureRead, .soundingResetClockRead 7,
      .soundingStageRead 0x10, .soundingBudgetRead, .alertSrcRead, .squallRequest true, .squallWithdraw true, .soundingBudgetWrite 0 true]) ∨
    (s.dbg.alert = 0 ∧ c = .alertResponseAddress)) → exec c s = .next { s with out := [], nack := true })

/-! ## Service, power, start-up (spec/12 to spec/14) -/

/-- A field that loses its supply is off and fenced, its neighbours fence towards it, and every parcel that touches it faults; routes are computed
anew for the fields that are not fenced; a controller or port of a fenced field moves to its second attachments, and every controller, where the memory domain works, discards the
requests of that field; a lost segment or branch stops its unit until a Cold reset or power-on (log entry 58); an expired processor restarts, and one that is back counts the restart, Compass only from an image that the ROM
accepts (log entry 109). The first waiting transaction takes its next step when nothing blocks it and no earlier restart is to settle: staged in the places not in use, checked, entered in both journals, committed by device
0's entry, with the image which that entry selects, and then in device 1's (log entry 81), applied to fuses and survey copies, marked done; then it leaves, and the command whose last transaction it was has its
second completion, OK, with the transaction's number. -/
def Obligations.SuppliesRoutesAndRestartsAreServed : Prop :=
  (∀ (s : State) (f : Nat) (c : Instr), (c = .fieldSupplyFault f ∨ c = .segmentSupplyFault (.clock f)) →
    ((s.field f).live = false → exec c s = .next s) ∧
    (f < s.fields.length → (s.field f).live = true → Answers c s fun t => t.powered f = false ∧ (t.field f).fenced = true ∧ (t.field f).supply = true ∧
      (∀ d g, d < 4 → fieldBeyond f d = some g → g < s.fields.length → (t.field g).side.getLsbD (oppositeSide d) = true) ∧
      (∀ q ∈ s.parcels, q.touches f = true → ∃ q' ∈ t.parcels, q'.num = q.num ∧ q'.fault.isSome = true) ∧ t.edge = s.edge)) ∧
  (∀ (s : State), s.serves .theodolite = true → s.fields.length = 48 → Answers .routeRewrite s fun t =>
    (∀ f, f < 48 → (s.field f).fenced = false → ∀ g, g < 48 → (t.field f).route[g]? = some (s.routeEntry f g)) ∧ t.plots = s.plots ∧
    t.nv.survey.version = s.nv.survey.version + (if s.rewriteRoutes.fields = s.fields ∨ s.routesDue = true then 0 else 1)) ∧
  (∀ (s : State) (p c : Nat), s.serves .theodolite = true → s.emcs.length = 24 →
    (let rid := fun (f : Nat) (t : State) => t.plots = s.plots ∧
       ∀ d, d < 24 → (t.emc d).pool = if s.clk.mem.up then (s.emc d).pool.filter (fun q => fieldOfPhys q.phys != f) else (s.emc d).pool
     (p < s.ports.length → (s.port p).second = false → (s.field (portField p)).fenced = true → Answers (.attachmentSwitch (.port p)) s fun t =>
       (t.port p).second = true ∧ rid (portField p) t) ∧
     (c < 24 → (s.emc c).second = false → (s.field (emcField c)).fenced = true → Answers (.attachmentSwitch (.emc c)) s fun t =>
       (t.emc c).second = true ∧ rid (emcField c) t))) ∧
  (∀ (s : State) (c p : Nat) (q : Proc),
    (c < s.emcs.length → Answers (.segmentSupplyFault (.memory c)) s fun t => (t.emc c).cut = true ∧ (t.emc c).retired = true ∧ t.plots = s.plots) ∧
    (p < s.ports.length → (s.port p).cut = false → Answers (.segmentSupplyFault (.link p)) s fun t => (t.port p).cut = true ∧
      (t.port p).st = (if (s.port p).st = .off then .off else .down) ∧ t.plots = s.plots) ∧
    exec (.standbyBranchFault (.processor q)) s = .next (s.setProc q { s.proc q with cut := true, up := false, restarting := false }) ∧
    exec (.standbyBranchFault .hostInterface) s = .next { s with hif := { s.hif with cut := true } } ∧
    exec (.standbyBranchFault .sideband) s = .next { s with dbg := { s.dbg with cut := true } }) ∧
  (∀ (s : State) (q : Proc), procIndex q < s.procs.length → (s.proc q).up = true → (s.proc q).cut = false →
    ((s.proc q).restarting = false → (s.proc q).halted = false → s.serves (restarterOf q) = true → Answers (.processorWatchdogExpiry q) s fun t =>
      (t.proc q).restarting = true ∧ (t.proc q).expired = false ∧ t.dbg.alert.getLsbD 4 = true ∧ t.plots = s.plots) ∧
    ((s.proc q).restarting = false → (s.proc q).halted = false → s.serves (restarterOf q) = false →
      exec (.processorWatchdogExpiry q) s = .next (s.setProc q { s.proc q with expired := true })) ∧
    ((s.proc q).restarting = false → (s.proc q).expired = true → Answers (.hardwareRestart q) s fun t => (t.proc q).restarting = true ∧
      (t.proc q).expired = false ∧ t.plots = s.plots) ∧
    ((s.proc q).expired = false → exec (.hardwareRestart q) s = .next s) ∧
    ((s.proc q).restarting = true → q = .compass → s.nv.romImage = none → exec (.processorRestartComplete q) s = .next s) ∧
    ((s.proc q).restarting = true → (q = .compass → s.nv.romImage.isSome = true) → Answers (.processorRestartComplete q) s fun t => (t.proc q).restarting = false ∧
      (t.proc q).restarts = min 0xFFFF ((s.proc q).restarts + 1) ∧ (q ≠ .theodolite → t.plots = s.plots) ∧ ∀ o, o ≠ q → t.proc o = s.proc o)) ∧
  (∀ (s : State) (x : Txn) (rest : List Txn), s.serves .compass = true → s.nv.due = none → s.nv.work = x :: rest →
    (let waits := s.nvBlocked = true ∨ (x.step = 3 ∧ x.waitsSquall = true ∧ s.pwr.state = .squall)
     let n := (s.nv.stepTxn x).1
     let y := (s.nv.stepTxn x).2
     (waits → exec .transactionResume s = .next s) ∧
     (¬ waits → x.step < 6 → exec .transactionResume s = .next { s with nv := { n with work := y :: rest } }) ∧
     (¬ waits → 6 ≤ x.step → ∀ c, x.cmd = some c → exec .transactionResume s =
       .next (if x.last then { s with nv := { n with work := rest } }.second c 0x00 [x.num] else { s with nv := { n with work := rest } })) ∧
     (¬ waits → 6 ≤ x.step → x.cmd = none → exec .transactionResume s = .next { s with nv := { n with work := rest } }))) ∧
  (∀ (n : Nv) (x : Txn),
    (let m := (n.stepTxn x).1
     let y := (n.stepTxn x).2
     (x.step = 0 → y.step = 1 ∧ y.copyDev = 1 - n.used ∧ m.survey = n.survey ∧ m.select = n.select ∧
       (∀ i, x.image = some i → m.slots = n.slots.set (1 - n.select) i) ∧ (∀ v, x.survey = some v → m.copies = n.copies.set (1 - n.used) v)) ∧
     (x.step = 1 → m = n ∧ y.step = if n.checksTxn x then 2 else 0) ∧
     (x.step = 2 → y.step = 3 ∧ m.journals = n.journals.map (fun j => (j ++ [x.entry n]).drop (j.length + 1 - 1024)) ∧ m.slots = n.slots) ∧
     (x.step = 3 → y.step = 4 ∧ m.select = n.selected x.num ∧ m.journals[1]? = n.journals[1]? ∧ ∀ e ∈ m.entries, e.txn = x.num → e.commit = true) ∧
     (∀ e, (n.entries.find? fun e => e.txn == x.num) = some e → n.selected x.num = e.select) ∧
     (x.step = 4 → y.step = 5 ∧ m.select = n.select ∧ m.entries = n.entries ∧ ∀ e ∈ (m.journals[1]?).getD [], e.txn = x.num → e.commit = true) ∧
     (x.step = 5 → y.step = 6 ∧ (∀ v, x.survey = some v → m.copies = [v, v]) ∧
       ∀ w ∈ x.fuses, ∀ k, w.2.getLsbD k = true → (m.fuse w.1).getLsbD k = true) ∧
     (6 ≤ x.step → n.journals.length = 2 → y.step = 7 ∧ ∀ j ∈ m.journals, ∀ e ∈ j, e.txn = x.num → e.done = true)))

/-- Measurements and the slots of Isobar: a slot records watts and input voltages (DEDUCED, log entry 67), ends the main-input cause above 47.0 V, and changes no plot; a hint report takes the smallest hint of the
field's working plots, and a field without one has none (log entry 65); of a field's junction readings the hottest is recorded with its sensor, the lowest number of equal ones (log entry 106), and the limit of 95 °C that holds down to 92 (14 R472), and the junction
cause ends when every field for which it arose has been read below 100 °C; a cap sample enters the average of up to 200 samples and the energy; a cap step moves the fields at the fastest point
on by one; a coolant change sets the allowance in force, and ends the coolant cause within its limits; a droop stretches once per lockout, and one more than 4,096 within 100 us moves its field on by a point, and every
field as far as twice the slowest's frequency allows (14 R479; the count begins anew after it, log entry 107); the ageing trim only rises, in steps of 5 mV up to 60, and changes no voltage yet (log entry 65). -/
def Obligations.PowerMeasurementsSetTheirRegisters : Prop :=
  (∀ (s : State) (w : List Nat) (o a b : Nat), s.serves .isobar = true → s.main = true → Answers (.isobarSlot w o a b) s fun t =>
    t.pwr.mainMv = a % 65536 ∧ t.pwr.standbyMv = b % 65536 ∧ t.pwr.causes.getLsbD 2 = (s.pwr.causes.getLsbD 2 && decide (a % 65536 ≤ 47000)) ∧ t.pwr.dither = (s.pwr.dither + 1) % 100 ∧
    (∀ f, f < s.fields.length → (t.field f).watts = ((w[f]?).getD (s.field f).watts) % 65536) ∧ t.plots = s.plots ∧ t.pwr.state = s.pwr.state) ∧
  (∀ (s : State) (f : Nat), f < s.fields.length → (s.field f).live = true →
    (let l := (s.plots.filter fun pp => fieldOfPhys pp.1 == f && (pp.2.st == .running || pp.2.st == .draining)).map (·.2)
     Answers (.hintReport f) s fun t => (t.field f).hintValid = !l.isEmpty ∧ (t.field f).point = (s.field f).point ∧ t.plots = s.plots ∧
       (l ≠ [] → (∃ p ∈ l, (t.field f).hint = min 7 p.hint) ∧ ∀ p ∈ l, (t.field f).hint ≤ p.hint))) ∧
  (∀ (s : State) (h : List (List Nat)), Answers (.junctionRead h) s fun t => { t with fields := s.fields, pwr := s.pwr } = s ∧
    (∀ f, f < s.fields.length →
      (let l := ((h[f]?).getD []).take 16
       (t.field f).point = (s.field f).point ∧ (l = [] → t.field f = s.field f) ∧
       (∀ k v, l[k]? = some v → (∀ j u, l[j]? = some u → u < v ∨ (u = v ∧ k ≤ j)) → (t.field f).hottest = v % 256 ∧ (t.field f).sensor = k ∧
         (t.field f).tooHot = (decide (95 ≤ v) || ((s.field f).tooHot && decide (92 ≤ v)))))) ∧
    (∀ f, f < 48 → t.pwr.junction.getLsbD f = (s.pwr.junction.getLsbD f && !(decide ((t.field f).hottest < 100) && !((h[f]?).getD []).isEmpty))) ∧
    t.pwr.causes.getLsbD 0 = (s.pwr.causes.getLsbD 0 && decide (t.pwr.junction ≠ 0))) ∧
  (∀ (s : State) (w : Nat), w < 65536 → Answers (.capSample w) s fun t => t.pwr.samples = (w :: s.pwr.samples).take 200 ∧ t.pwr.mainW = w ∧
    t.pwr.avgW = ((w :: s.pwr.samples).take 200).foldl (· + ·) 0 / ((w :: s.pwr.samples).take 200).length ∧
    t.pwr.energy = (s.pwr.energy + 10 * w) % 2 ^ 64 ∧ t.pwr.causes.getLsbD 4 = (s.pwr.causes.getLsbD 4 && decide (45500 ≤ t.pwr.avgW)) ∧
    { t with pwr := s.pwr } = s) ∧
  (∀ (s : State), s.main = true → 44500 ≤ s.pwr.avgW → 43500 ≤ s.pwr.mainW → Answers .capStep s fun t => t.pwr.events.getLsbD 1 = true ∧
    t.plots = s.plots ∧ (∀ f, f < s.fields.length → (t.field f).point = if (s.field f).live = true ∧ (s.field f).point = s.fastest ∧ s.fastest < 7
      then (s.field f).point + 1 else (s.field f).point) ∧ s.pwr.netPoint ≤ t.pwr.netPoint) ∧
  (∀ (s : State) (i o f : Nat), i < 256 → f < 4096 → Answers (.coolantChange i o f) s fun t => t.pwr.inlet = i ∧ t.pwr.flow = f ∧
    t.pwr.inForce = min s.pwr.sustain (allowance i f) ∧ t.pwr.sustain = s.pwr.sustain ∧
    t.pwr.causes.getLsbD 3 = (s.pwr.causes.getLsbD 3 && !decide (i ≤ 47 ∧ 300 ≤ f)) ∧ t.fields = s.fields) ∧
  (∀ (s : State) (f : Nat), f < s.fields.length → (s.field f).live = true →
    ((s.field f).lockout ≠ 0 → exec (.droopStretch f) s = .next s) ∧
    (let recent := s.clk.count :: (s.field f).stretchAt.filter fun t => decide (s.clk.count < t + 10000)
    ((s.field f).lockout = 0 → (recent.length ≤ 4096 ∨ 7 ≤ (s.field f).point) → exec (.droopStretch f) s = .next (s.setField f
      { s.field f with lockout := 8, pwr := (s.field f).pwr.bump 0 1, stretchAt := recent })) ∧
    ((s.field f).lockout = 0 → 4096 < recent.length → (s.field f).point < 7 → Answers (.droopStretch f) s fun t =>
      (let u := s.setField f { s.field f with point := (s.field f).point + 1 }
       (∀ g, g < s.fields.length → (s.field g).live = true → (t.field g).point = max (u.field g).point (twicePoint u.slowest))) ∧
      (t.field f).lockout = 8 ∧ (t.field f).stretchAt = [] ∧ t.pwr.events.getLsbD 2 = true ∧ t.slowest ≤ t.pwr.netPoint))) ∧
  (∀ (s : State) (need : List Nat), s.serves .isobar = true → Answers (.ageingMeasure need) s fun t => ∀ f, f < s.fields.length →
    (t.field f).trim = max (s.field f).trim (min 60 (((need[f]?).getD 0 + 4) / 5 * 5)) ∧ (t.field f).point = (s.field f).point ∧ (t.field f).vdd = (s.field f).vdd)

/-- Squall causes enter squall, with the network clock at point 7, the fields that the cause squalls at point 7 (a junction cause its own field, any other every field), and every other powered
field at point 5 or slower; before the main domains are released a cause is only recorded (DEDUCED, log entry 55). Squall ends when no cause holds, fields staying where they were. A thermal trip while there is supply, a flow below 15 L/min, which sets the coolant cause, and a loss or
over-voltage of the main input open the main domains: Standby (Off stays Off), edge memory lost and reading as zero (log entry 7), fuses kept, squall causes as they stand (14 R485), an unlock
token ended by the entry to Standby alone (16 R527). PWR_GOOD (17 R537) is high in Idle, Active and Squall, low in Standby, undriven in Off. A non-volatile block holds until it is lifted, and with it the main-input
cause; loss of the standby input is Off, its state as after a Cold reset (log entry 59) and edge memory as zero (log entry 7). Idle is entered when the module is quiet,
with fields at point 6, or under a fixed network clock as slow as 08 R307 lets them (log entry 105), and stacks in self-refresh; what needs the module ends it, and the fields and stacks follow. -/
def Obligations.PowerStatesChange : Prop :=
  (∀ (s : State) (f c : Nat), s.main = true →
    (let squalled := fun (i : Instr) (k : Nat) (who : Nat → Bool) => Answers i s fun t => t.pwr.state = .squall ∧ t.pwr.netPoint = 7 ∧
       t.pwr.causes.getLsbD k = true ∧ (∀ c, (t.emc c).selfRefresh = false) ∧
       ∀ g, g < s.fields.length → (t.field g).squalled = ((s.field g).squalled || who g) ∧
         ((s.field g).live = true → (t.field g).point = if (t.field g).squalled then 7 else max (s.field g).point 5)
     let all := fun (_ : Nat) => true
     squalled (.squall (.junction f)) 0 (· == f) ∧ squalled (.squall .mainInput) 2 all ∧ ((s.emc c).crit = true → squalled (.squall (.stack c)) 1 all) ∧
     ((s.emc c).crit = false → exec (.squall (.stack c)) s = .next s) ∧ ((47 < s.pwr.inlet ∨ s.pwr.flow < 300) → squalled (.squall .coolant) 3 all) ∧
     (45500 ≤ s.pwr.avgW → squalled (.squall .cap) 4 all) ∧
     (s.pwr.avgW < 45500 → exec (.squall .cap) s = .next s))) ∧
  (∀ (s : State), s.main = false → exec (.squall .mainInput) s = .next { s with pwr := { s.pwr with causes := s.pwr.causes ||| 4 } }) ∧
  (∀ (s : State), s.pwr.state = .squall →
    (s.squallHolds = true → exec .squallEnd s = .next s) ∧
    (s.squallHolds = false → Answers .squallEnd s fun t => t.pwr.causes = 0 ∧ t.pwr.state = (if s.quiet = true ∧ s.clk.ready = true then .idle else .active) ∧
      t.dbg.suspended = false ∧ (∀ f, (t.field f).squalled = false ∧ (t.field f).point = (s.field f).point) ∧ t.plots = s.plots)) ∧
  (∀ (s : State), (s.pwr.state = .off → exec .thermalTrip s = .next s) ∧ (150 ≤ s.pwr.flow → exec .coolantLost s = .next s)) ∧
  (∀ (s : State) (c : Instr), ((c = .thermalTrip ∧ s.pwr.state ≠ .off) ∨ (c = .coolantLost ∧ s.pwr.flow < 150) ∨ c = .mainInputLoss ∨ c = .mainOverVoltage) → Answers c s fun t =>
    t.pwr.state = (if s.pwr.state = .off then .off else .standby) ∧ t.pwrGood = (if s.pwr.state = .off then none else some false) ∧
    t.edge = Mem.reset ∧ t.pwr.causes = (if c = .coolantLost then s.pwr.causes ||| 8 else s.pwr.causes) ∧ t.clk.mem.up = false ∧ t.clk.link.up = false ∧
    t.clk.clock.up = false ∧ (if s.main then t.dbg.tokenValid = false ∧ t.dbg.level = 0 else t.dbg.tokenValid = s.dbg.tokenValid ∧ t.dbg.level = s.dbg.level) ∧
    (∀ f, f < s.fields.length → t.powered f = false ∧ (t.field f).squalled = false) ∧ (c = .thermalTrip → t.pwr.stopped = true ∧ t.dbg.thermtrip = true ∧ t.dbg.alert.getLsbD 5 = true) ∧
    (c = .coolantLost → t.pwr.stopped = true) ∧ (c = .mainInputLoss ∨ c = .mainOverVoltage → t.clk.mainValid = false) ∧ t.nv.fuses = s.nv.fuses) ∧
  (∀ (s : State), ((s.pwr.state = .idle ∨ s.pwr.state = .active ∨ s.pwr.state = .squall) → s.pwrGood = some true) ∧
    (s.pwr.state = .standby → s.pwrGood = some false) ∧ (s.pwr.state = .off → s.pwrGood = none)) ∧
  (∀ (s : State), (Answers (.nvBlock false) s fun t => t.pwr.blockMain = true ∧ t.nvBlocked = true ∧ t.pwr.blockStandby = s.pwr.blockStandby) ∧
    (Answers (.nvBlock true) s fun t => t.pwr.blockStandby = true ∧ t.nvBlocked = true ∧ t.pwr.blockMain = s.pwr.blockMain) ∧
    exec .nvUnblock s = .next { s with pwr := { s.pwr with blockMain := false, blockStandby := false, causes := s.pwr.causes &&& ~~~(4 : BitVec 6) } }) ∧
  (∀ (s : State), Answers .standbyInputLoss s fun t => t.pwr.state = .off ∧ t.nv.fuses = s.nv.fuses ∧ t.nv.slots = s.nv.slots ∧ t.nv.copies = s.nv.copies ∧
    t.plots = [] ∧ t.edge = Mem.reset ∧ t.parcels = [] ∧ t.pending = s.pending) ∧
  (∀ (s : State), s.clk.ready = true → s.pwr.state = .active → s.quiet = true → Answers .idleEntry s fun t => t.pwr.state = .idle ∧
    (∀ f, f < s.fields.length → (s.field f).live = true → (s.field f).fixed = false → (t.field f).point = if s.pwr.netFixed then min 6 s.pwr.netFix else 6) ∧
    t.pwr.netPoint = (if s.pwr.netFixed then s.pwr.netFix else 6) ∧
    (∀ c, c < s.emcs.length → (t.emc c).selfRefresh = true) ∧ t.plots = s.plots ∧ t.edge = s.edge) ∧
  (∀ (s : State), (s.pwr.state = .idle → s.wake = { s with pwr := { s.pwr with state := .active, waking := true } }) ∧ (s.pwr.state ≠ .idle → s.wake = s) ∧
    (s.pwr.state ≠ .active ∨ s.pwr.waking = false → exec .idleExit s = .next s)) ∧
  (∀ (s : State), s.pwr.state = .active → s.pwr.waking = true → Answers .idleExit s fun t => t.pwr.state = .active ∧ t.pwr.waking = false ∧ (∀ c, (t.emc c).selfRefresh = false) ∧
    (s.pwr.netFixed = false → t.pwr.netPoint = t.slowest) ∧ t.plots = s.plots ∧ t.edge = s.edge)

/-- A power-on reset is Cold; a pulse is Warm when the fuse is blown, else Cold; a reset during a Cold release is Cold, and the
release begins again from step 1. A pulse of 1 to 10 ms and a low time of 100 ms or more reset the module, keeping fuses and flash; a shorter pulse
or one between is ignored and counted (within 2 % of a boundary a free value decides, and a hold resets at its 100 ms mark: log entry 59). The release goes by its steps, step 1 beginning S0, steps 2 and 3 the clock and memory domains, 4 to 15 the
fields, 16 the links; without the main input it stops, S2 FAILED with reason 6 and the domains open (DEDUCED, log entry 90); a field whose supply does not come is fenced. -/
def Obligations.ResetsAndReleaseFollowTheirOrder : Prop :=
  (∀ (s : State), Answers .powerOnReset s fun t => t.clk.step = 0 ∧ t.clk.level = 0 ∧ t.clk.cause = 0 ∧ t.pwr.state = .standby ∧ t.plots = [] ∧ t.parcels = [] ∧
    t.edge = Mem.reset ∧ t.nv.fuses = s.nv.fuses ∧ t.nv.slots = s.nv.slots ∧ t.nv.copies = s.nv.copies ∧ t.hif.mem = s.hif.mem ∧ t.hif.cut = false ∧
    t.regs.device = 0 ∧ t.pending = s.pending) ∧
  (∀ (s : State) (us : Nat), s.pwr.state ≠ .off →
    (let warm := (s.nv.fuse 3).getLsbD 0 && !(decide (s.clk.step < 16) && s.clk.level == 0)
     let gone := fun (t : State) => t.plots = [] ∧ t.parcels = [] ∧ t.stratus = [] ∧ t.hif.ledger = [] ∧ t.nv.fuses = s.nv.fuses ∧
       t.nv.slots = s.nv.slots ∧ t.nv.copies = s.nv.copies ∧ t.hif.mem = s.hif.mem ∧ t.pending = s.pending
     (us = 0 → exec (.resetPulse us) s = .next { s with freeCtr := s.freeCtr + 1 }) ∧
     ((0 < us ∧ us < 980 ∨ 10200 < us ∧ us < 98000) → exec (.resetPulse us) s = .next { s with freeCtr := s.freeCtr + 1, clk := { s.clk with
       ignored := true, ignoredCount := min 255 (s.clk.ignoredCount + 1), widthMs := min 255 (us / 1000) } }) ∧
     (1020 < us → us < 9800 → Answers (.resetPulse us) s fun t => gone t ∧ t.clk.step = 1 ∧ t.clk.cause = 2 ∧ t.clk.level = (if warm then 1 else 0) ∧
       t.clk.widthMs = 0 ∧ t.edge = (if warm then s.edge else Mem.reset) ∧ t.regs.device = (if warm then s.regs.device else 0) ∧
       t.stageRuns 0 = true) ∧
     (102 < us → Answers (.resetHold us) s fun t => gone t ∧ t.clk.step = 0 ∧ t.clk.cause = 1 ∧ t.clk.level = 0 ∧ t.edge = Mem.reset ∧
       t.regs.device = 0))) ∧
  (∀ (s : State), s.pwr.state ≠ .off → s.pwr.stopped = false → s.clk.stages.length = 9 →
    (s.clk.step = 0 → Answers .releaseStep s fun t => t.clk.step = 1 ∧ t.clk.count = 0 ∧ t.stageRuns 0 = true ∧ t.clk.stage = 0 ∧
      t.dbg.sampled = s.dbg.straps ∧ t.plots = s.plots) ∧
    (s.stageRuns 2 = true → s.clk.selected = true → s.clk.mainValid = false → s.clk.step ≠ 0 → Answers .releaseStep s fun t =>
      (t.stageAt 2).result = 4 ∧ (t.stageAt 2).reason = 6 ∧ t.pwr.state = .standby ∧ t.clk.mem.up = false ∧ t.clk.step = s.clk.step ∧
        ∀ f, f < s.fields.length → t.powered f = false) ∧
    (s.stageRuns 2 = true → s.clk.selected = true → s.clk.mainValid = true →
      (let on : Domain := ⟨true, true, true⟩
       (s.clk.step = 1 → exec .releaseStep s = .next { s with clk := { s.clk with step := 2, clock := on } }) ∧
       (s.clk.step = 2 → exec .releaseStep s = .next { s with clk := { s.clk with step := 3, mem := on } })) ∧
      (3 ≤ s.clk.step → s.clk.step < 15 → Answers .releaseStep s fun t => t.clk.step = s.clk.step + 1 ∧ ∀ f, f < s.fields.length →
        if f / 4 = s.clk.step - 3 ∧ (s.field f).supply = false then (t.field f).pwrEn = true ∧ (t.field f).rstN = true ∧ (t.field f).point = 4 ∧
          (t.field f).cycles = 0 ∧ (t.field f).pwrOk = (s.field f).pwrOk else t.field f = s.field f) ∧
      (s.clk.step = 15 → s.pwr.causes = 0 → Answers .releaseStep s fun t => t.clk.step = 16 ∧ t.pwr.state = .active ∧ t.pwr.netPoint = 4 ∧
        t.clk.link.up = true ∧ t.stageRuns 3 = true ∧ t.clk.stage = 3 ∧ ((t.stageAt 2).result = 2 ∨ (t.stageAt 2).result = 3) ∧ t.fields = s.fields ∧
        ∀ p, p < 16 → p < s.ports.length → (s.port p).st = .off → (s.port p).disable = false → (s.port p).cut = false → s.roleOf p ≠ 7 →
          (t.port p).st = .detect))) ∧
  (∀ (s : State) (f : Nat), f < s.fields.length → (s.field f).pwrEn = true → (s.field f).rstN = true → (s.field f).pwrOk = false →
    Answers (.domainSupplyTimeout f) s fun t => (t.field f).fenced = true ∧ (t.field f).supply = true ∧ (t.field f).pwrEn = false ∧
      t.powered f = false ∧ t.plots = s.plots)

/-- S0 runs image A, or B when A does not boot, or stops the start-up with reason 2; S1 starts the processors, settles the journal (a committed
transaction that is not done is finished, a latest one that is not committed is discarded) and uses the good survey copy with the larger sequence
number, or stops with reason 3 (what the journal leaves open: log entry 80). S2 takes REFCLK_A if it is good, else the oscillator trimmed to REFCLK_B, and fails with
reason 4, NO_REFERENCE, when neither is good; it stops with reason 6 without the main input and 5 without lock (in this order: DEDUCED, log entry 61). -/
def Obligations.EarlyStagesChooseOrStop : Prop :=
  (∀ (s : State) (a b : FlashReading), s.stageRuns 0 = true → s.clk.stages.length = 9 →
    (let A := (s.nv.slots[s.nv.select]?).getD Image.none
     let B := (s.nv.slots[1 - s.nv.select]?).getD Image.none
     Answers (.imageVerify a b) s fun t => { t.nv with running := s.nv.running } = s.nv ∧ t.plots = s.plots ∧
       if s.nv.boots A a = true then t.nv.running = A ∧ (t.stageAt 0).result = 2 ∧ t.stageRuns 1 = true
       else if s.nv.boots B b = true then t.nv.running = B ∧ (t.stageAt 0).result = 2 ∧ t.stageRuns 1 = true
       else (t.stageAt 0).result = 4 ∧ (t.stageAt 0).reason = 2 ∧ t.clk.stage = s.clk.stage ∧ t.dbg.alert.getLsbD 0 = true)) ∧
  (∀ (s : State) (k0 k1 : Bool) (g w : Nat), s.nvBlocked = true → (s.discardTxns).1.nv.flash ≠ s.nv.flash → exec (.chartroomStart k0 k1 g w) s = .next s) ∧
  (∀ (s : State) (k0 k1 : Bool) (g w : Nat), s.stageRuns 1 = true → s.clk.stages.length = 9 →
    (s.nvBlocked = false ∨ (s.discardTxns).1.nv.flash = s.nv.flash) → Answers (.chartroomStart k0 k1 g w) s fun t =>
    Nv.fusesStay s.nv t.nv ∧ t.nv.copies = (s.discardTxns).1.nv.copies ∧ t.nv.journals = (s.discardTxns).1.nv.journals ∧
    t.nv.fuses = (s.discardTxns).1.nv.fuses ∧ (((t.stageAt 1).detail)[2]?) = some (s.discardTxns).2 ∧ t.nv.staged = [] ∧ t.nv.work = [] ∧ (∀ q, procIndex q < s.procs.length → (t.proc q).up = !(s.proc q).cut) ∧
    match t.nv.chooseCopy k0 k1 with
    | some i => t.nv.survey = (t.nv.copies[i]?).getD Survey.factory ∧ t.nv.used = i ∧ (t.stageAt 1).result = 2 ∧ t.stageRuns 2 = true
    | none => t.nv.lost = true ∧ (t.stageAt 1).result = 4 ∧ (t.stageAt 1).reason = 3 ∧ t.clk.stage = s.clk.stage) ∧
  (∀ (n : Nv) (l : List JEntry) (e : JEntry), n.entries = l ++ [e] → n.journals.length = 2 → (∀ x ∈ l, x.commit = true → x.done = true) →
    (e.commit = true → e.done = true → n.settle = (n, 0)) ∧
    (e.commit = true → e.done = false → n.settle = (n.finish e, 1) ∧ (∀ j ∈ (n.finish e).journals, ∀ x ∈ j, x.txn = e.txn → x.done = true) ∧
      ∀ w ∈ e.fuses, ∀ k, w.2.getLsbD k = true → ((n.finish e).fuse w.1).getLsbD k = true) ∧
    (e.commit = false → n.settle = (if e.ops.getLsbD 0 then n.spoil e.surveyDev else n, 2))) ∧
  (∀ (n : Nv) (c0 c1 : Survey), n.copies = [c0, c1] → c0.good = true → c0.mine = true → c1.good = true → c1.mine = true →
    n.chooseCopy true true = some (if c0.seq < c1.seq then 1 else 0) ∧ n.chooseCopy false true = some 1 ∧ n.chooseCopy true false = some 0 ∧
    n.chooseCopy false false = none) ∧
  (∀ (s : State) (a b m l : Bool) (ok : List Bool), s.stageRuns 2 = true → s.clk.selected = false → s.clk.step = 1 → s.clk.stages.length = 9 → s.parcels = [] →
    Answers (.referenceSelection a b m l ok) s fun t => t.clk.aGood = a ∧ t.clk.bGood = b ∧ t.clk.mainValid = m ∧ t.plots = s.plots ∧
      (let stops := fun (r : Nat) => t.clk.selected = false ∧ (t.stageAt 2).result = 4 ∧ (t.stageAt 2).reason = r
       if a = false ∧ b = false then stops 4
       else t.clk.source = (if a then 0 else 1) ∧ (if m = false then stops 6 else if l = false then stops 5
         else t.clk.selected = true ∧ t.stageRuns 2 = true ∧ ∀ f, f < s.fields.length → (t.field f).pwrOk = (ok[f]?).getD false)))

/-- S3 to S8: a join with a group of more than two failing wires fences its field, or the side that its two fields share on both (12 R419); triangulation, on a Cold start, marks a plot dead,
and leaves it FENCED, whose own tests fail; the gazetteer is built, dead plots fenced; a stack is trained, or retired; S7 ends; S8 makes the module ready. A join that no result names passes (log
entry 57); what S3 and S5 count as a difference is log entries 62 and 91. -/
def Obligations.LateStagesTestBuildAndTrain : Prop :=
  (∀ (s : State) (l : List JoinResult), s.stageRuns 3 = true → s.clk.stages.length = 9 → s.fields.length = 48 → Answers (.stitchWireTest l) s fun t =>
    ((t.stageAt 3).result = 2 ∨ (t.stageAt 3).result = 3) ∧ (if s.clk.level = 0 then t.stageRuns 4 = true ∧ t.clk.stage = 4 else
      (t.stageAt 4).result = 5 ∧ t.stageRuns 5 = true ∧ t.clk.stage = 5) ∧ t.plots = s.plots ∧
    (∀ r ∈ l, r.join < 48 → (r.failing.any fun n => decide (2 < n)) = true → (t.field r.join).fenced = true ∧ (t.field r.join).side = 15) ∧
    (∀ r ∈ l, 48 ≤ r.join → r.join < 130 → (r.failing.any fun n => decide (2 < n)) = true → (if r.join < 90 then
        (let f := (r.join - 48) / 7 * 8 + (r.join - 48) % 7
         (t.field f).side.getLsbD 1 = true ∧ (t.field (f + 1)).side.getLsbD 3 = true)
      else (t.field (r.join - 90)).side.getLsbD 2 = true ∧ (t.field (r.join - 82)).side.getLsbD 0 = true))) ∧
  (∀ (s : State) (l : List PlotTest), s.stageRuns 4 = true → s.clk.stages.length = 9 → s.clk.level = 0 → s.serves .theodolite = true →
    Answers (.triangulation l) s fun t => t.clk.tested = true ∧ t.stageRuns 5 = true ∧ t.clk.stage = 5 ∧ t.nv.fuses = s.nv.fuses ∧
      (∀ r ∈ l, physOk r.phys = true → s.testable r.phys = true → (l.find? fun x => x.phys == r.phys) = some r →
        (t.plot r.phys).test.done = true ∧ (t.plot r.phys).test.selfFail = r.selfFail ∧ (t.plot r.phys).test.sig = r.sig ∧
        (r.selfFail = true → t.isDead r.phys = true ∧ (t.plot r.phys).st = .fenced))) ∧
  (∀ (s : State), s.stageRuns 5 = true → s.clk.stages.length = 9 → s.serves .theodolite = true → Answers .gazetteerBuild s fun t => t.clk.built = true ∧
    t.stageRuns 6 = true ∧ t.clk.stage = 6 ∧ (∀ ph ∈ s.nv.survey.dead, (t.plot ph).fence = true ∧ (t.plot ph).st = .fenced ∧ (t.plot ph).test.dead = true) ∧
    t.nv.survey.dead = s.nv.survey.dead ∧ ((t.stageAt 5).result = 2 → t.nv.survey.version = s.nv.survey.version) ∧
    ((t.stageAt 5).result ≠ 2 → t.nv.survey.version = s.nv.survey.version + 1)) ∧
  (∀ (s : State) (l : List StackTraining), s.stageRuns 6 = true → s.clk.stages.length = 9 → Answers (.edgeMemoryTraining l) s fun t =>
    t.stageRuns 7 = true ∧ t.clk.stage = 7 ∧ t.edge = (if s.clk.level = 0 then Mem.reset else s.edge) ∧ t.plots = s.plots ∧
    ∀ c, c < s.emcs.length → (let ok := !(s.emc c).cut && l.any fun r => r.stack == c && r.passed
      (t.emc c).trained = ok ∧ (t.emc c).retired = (!ok || (s.emc c).retire) ∧ (t.emc c).selfRefresh = false)) ∧
  (∀ (s : State), s.stageRuns 7 = true → s.clk.stages.length = 9 → Answers .wengaLinkTraining s fun t => t.stageRuns 8 = true ∧ t.clk.stage = 8 ∧
    ((t.stageAt 7).result = 2 ∨ (t.stageAt 7).result = 3) ∧ { t with clk := s.clk } = s) ∧
  (∀ (s : State), s.stageRuns 8 = true → s.clk.stages.length = 9 → Answers .ready s fun t => t.clk.ready = true ∧ (t.stageAt 8).result = 2 ∧
    (t.stageAt 8).stop = s.clk.count ∧ { t with clk := s.clk } = s)

/-- The references: a window that finds A and B within 500 ppm records the difference and finds both good, and an oscillator that ran free is trimmed to
B again; A lost, by its edges or its frequency,
moves the source to B, or to the free oscillator without B; B lost moves it to the free oscillator if it was the source. Before S1 supervision does
nothing. Stitch mode marks its field, and faults every parcel that touches it (the first plot and record of such a fault: log entry 66). -/
def Obligations.ReferencesFailOverAndStitchModeMarks : Prop :=
  (∀ (s : State), s.clk.stage = 0 → exec .clkLost s = .next s ∧ exec .refclkBFail s = .next s ∧ ∀ d a b, exec (.supervisionWindow d a b) s = .next s) ∧
  (∀ (s : State) (d : Int) (a b : Bool), s.clk.stage ≠ 0 →
    (let src := if s.clk.source = 2 then 1 else s.clk.source
     (-500 ≤ d ∧ d ≤ 500) → exec (.supervisionWindow d a b) s = .next { s with clk := { s.clk with aVsB := d, aGood := true, aAlert := false, bGood := true, source := src } }) ∧
    ((500 < d ∨ d < -500) → s.clk.source = 0 → s.clk.aGood = true → s.clk.bGood = true → Answers (.supervisionWindow d false true) s fun t =>
      t.clk.aVsB = d ∧ t.clk.aGood = false ∧ t.clk.aLost = true ∧ t.clk.source = 1 ∧ t.dbg.alert.getLsbD 1 = true ∧ t.plots = s.plots)) ∧
  (∀ (s : State), s.clk.stage ≠ 0 → s.clk.aGood = true → Answers .clkLost s fun t => t.clk.aLost = true ∧ t.clk.aGood = false ∧
    t.clk.source = (if s.clk.source = 0 then (if s.clk.bGood then 1 else 2) else s.clk.source) ∧ t.clk.bGood = s.clk.bGood ∧ t.plots = s.plots) ∧
  (∀ (s : State), s.clk.stage ≠ 0 → s.clk.bGood = true → Answers .refclkBFail s fun t => t.clk.bLost = true ∧ t.clk.bGood = false ∧
    t.clk.source = (if s.clk.source = 1 then 2 else s.clk.source) ∧ t.clk.aGood = s.clk.aGood ∧ t.plots = s.plots) ∧
  (∀ (s : State) (f : Nat), f < s.fields.length → s.serves .theodolite = true → (Answers (.stitchModeEntry f) s fun t => (t.field f).stitch = true ∧
    (∀ q ∈ s.parcels, q.touches f = true → ∃ q' ∈ t.parcels, q'.num = q.num ∧ q'.fault.isSome = true) ∧ t.edge = s.edge ∧ t.nv = s.nv) ∧
    exec (.stitchModeExit f) s = .next (s.setField f { s.field f with stitch := false }))

/-! ## Wenga links (spec/11) -/

/-- Training and loss of a port: signal, equalisation, lane mapping and identification each move the port on from their state; a retrain condition
that holds takes an ACTIVE port to RETRAIN, and retraining ends in ACTIVE or DOWN; lane mapping records the width it found, identification the peer,
and an exchange outside IDENTIFY announces this end again; a port that has trained lanes and loses them all goes DOWN and loses its replay buffer and
the packet it holds in part; DOWN ends by its timer while the port is supplied. -/
def Obligations.PortsTrainAndGoDown : Prop :=
  ∀ (s : State) (p : Nat), p < s.ports.length →
    (let st := (s.port p).st
     let goes := fun (c : Instr) (x : LinkState) => Answers c s fun t => (t.port p).st = x ∧ t.plots = s.plots ∧ t.edge = s.edge ∧
       ∀ q, q ≠ p → (t.port q).st = (s.port q).st
     (∀ l : W16, (st = .detect → groupOfFour l = true → goes (.signalDetect p l) .equalise) ∧
       ((st ≠ .detect ∨ groupOfFour l = false) → exec (.signalDetect p l) s = .next s)) ∧
     (st = .equalise → goes (.equaliseDone p true) .laneMap ∧ goes (.equaliseDone p false) .detect) ∧
     (∀ m : LaneMap, st = .laneMap → (let w := laneWidth m.passing 3
       Answers (.laneMapDone p m) s fun t => (t.port p).width = w.1 ∧ (t.port p).group = w.2 ∧ (t.port p).failed = ~~~m.passing ∧
         (t.port p).rtt = m.rttNs % 65536 ∧ t.plots = s.plots ∧
         (t.port p).st = (if w.1 ≠ 0 ∧ (s.port p).minWidth ≤ w.1 ∧ m.rttNs ≤ 150 then .identify else .detect))) ∧
     (∀ e : Peer, (st = .identify ∨ st = .unnamed ∨ st = .conflict ∨ st = .mismatch) →
       (Answers (.identifyExchange p e) s fun t => (t.port p).st = s.identifyTo (s.roleOf p) e ∧ (t.port p).peerRole = e.role % 16 ∧
         (t.port p).peerDevice = e.device % 1024 ∧ t.plots = s.plots ∧ (t.port p).told = (s.port p).told ++ if st = .identify then [] else [s.toldBy p]) ∧
       (s.roleOf p = 0 → s.identifyTo 0 e = if e.gateway then .active else .mismatch) ∧
       (s.roleOf p ≠ 0 → (s.regs.written = false ∨ e.written = false) → s.identifyTo (s.roleOf p) e = .unnamed) ∧
       (s.roleOf p ≠ 0 → s.regs.written = true → e.written = true → e.device = s.regs.device → s.identifyTo (s.roleOf p) e = .conflict)) ∧
     (∀ w : RetrainWhy, (let holds := w = .laneLoss ∨ (w = .fecRate ∧ (s.port p).fecHigh = true) ∨ (w = .replayRate ∧ (s.port p).replayHigh = true)
       (st = .active → holds → goes (.retrainEntry p w) .retrain) ∧ (st ≠ .active ∨ ¬ holds → exec (.retrainEntry p w) s = .next s))) ∧
     (st = .retrain → goes (.retrainDone p none) .down ∧ ∀ m : LaneMap, (let w := laneWidth m.passing (s.port p).width
       (w.1 ≠ 0 → (s.port p).minWidth ≤ w.1 → m.rttNs ≤ 150 → Answers (.retrainDone p (some m)) s fun t => (t.port p).st = .active ∧
         (t.port p).width = w.1 ∧ t.plots = s.plots) ∧
       (w.1 = 0 → goes (.retrainDone p (some m)) .down))) ∧
     (st.trained = true → goes (.portDown p) .down ∧ Answers (.portDown p) s fun t => (t.port p).replay = [] ∧ (t.port p).los = true ∧
       (t.port p).part = []) ∧
     (st.trained = false → exec (.portDown p) s = .next s) ∧
     (st = .down → (s.port p).cut = false → goes (.downTimer p) .detect) ∧ (st ≠ .down ∨ (s.port p).cut = true → exec (.downTimer p) s = .next s))

/-- Flits and link credit of an ACTIVE port: a flit whose CRC is right and, if it carries data, whose number is the next one is taken, its units
joining the packet received in part, its ACK, where that is valid, freeing the replay buffer; the first bad one after a good one is answered with one
NAK; a NAK replays every unacknowledged flit, and the eighth without progress retrains the port; a keepalive is one idle flit; a kind 9 packet gives
credit back, up to 2,048 (the bound is the model's, log entry 38), in the order VC by VC (DESIGN CHOICE, log entry 23). Flits are formed as soon as they can
be (log entry 34). A flit put on the link goes out whole, and its levels on the lanes of the trained
group, as Gray-coded PAM4 (11 R380). -/
def Obligations.FlitsAreTakenReplayedAndCredited : Prop :=
  (∀ (s : State) (p : Nat) (fl b : List Byte) (fixed : Bool), (s.port p).st = .active → fl.length = 256 → fecCorrect fl = (b, fixed) →
    (let c := if fixed then s.countPort p 0 1 else s
     let u := c.setPort p ((c.port p).noteFec fl b)
     let hd := leNat (b.take 8)
     let good := leNat ((b.drop 0xE8).take 8) = crc64 (b.take 0xE8) ∧ (hd % 4 = 1 → bitsOf hd 13 2 = (u.port p).expect % 4096)
     let v := u.port p
     let ack := if hd.testBit 26 then some (bitsOf hd 25 14) else none
     let took := if hd % 4 = 1 then (List.range (bitsOf hd 58 56)).foldl (fun (v : Port) i => v.takeUnit (flitUnit hd b i)) { v with expect := v.expect + 1 } else v
     let heard : Port := { took with nakSent := false }
     let t := u.setPort p (match ack with | some a => heard.acked a | none => heard)
     (¬ good → exec (.flitReceive p fl) s = .next (if v.nakSent then u else u.setPort p (({ v with nakSent := true } : Port).idle true))) ∧
     (good → exec (.flitReceive p fl) s = .next (if hd.testBit 27 then t.nak p ack else t.pump p)))) ∧
  (∀ (s : State) (p : Nat), p < s.ports.length →
    ((s.port p).st ≠ .active → (∀ fl, exec (.flitReceive p fl) s = .next s) ∧ (∀ a, exec (.nakReceive p a) s = .next s) ∧
      exec (.flitKeepalive p) s = .next s) ∧
    ((s.port p).st = .active → Answers (.flitKeepalive p) s fun t => t = s.setPort p ((s.port p).idle false) ∧
      (t.port p).wire = (s.port p).wire ++ [flitBytes 0 0 (s.port p).ackNow false []]) ∧
    (∀ ack, (s.port p).st = .active → (let v := match ack with | some a => (s.port p).acked a | none => s.port p
      let again := v.wire ++ v.replay.map fun f => v.refresh f.bytes
      (v.replay = [] → exec (.nakReceive p ack) s = .next ((s.setPort p v).pump p)) ∧
      (v.replay ≠ [] → 7 ≤ v.replays → Answers (.nakReceive p ack) s fun t => (t.port p).st = .retrain ∧ (t.port p).replay = v.replay ∧
        (t.port p).wire = again ∧ t.plots = s.plots) ∧
      (v.replay ≠ [] → v.replays < 7 → v.waiting = [] → v.streamOwed = [] → (∀ n ∈ v.owe, n = 0) → Answers (.nakReceive p ack) s fun t =>
        (t.port p).st = .active ∧ (t.port p).replays = v.replays + 1 ∧ (t.port p).replay = v.replay ∧ (t.port p).wire = again)))) ∧
  (∀ (v : Port) (b : List Byte) (l : Nat), l < v.lanes.length → (v.putFlit b).wire = v.wire ++ [b] ∧
    (let n := laneCount v.width
     (v.putFlit b).lanes[l]? = some ((v.lanes[l]?).getD [] ++
       if n * v.group ≤ l ∧ l < n * v.group + n then laneLevels v.width b (l - n * v.group) else []))) ∧
  (∀ x : Byte, pam4 x = (List.range 4).map fun i => (([0, 1, 3, 2] : List Nat)[x.toNat / 4 ^ i % 4]?).getD 0) ∧
  (∀ (s u : State) (p : Nat) (k : LinkPkt), (s.takeRecv p fun x => x.kind == 9) = some (k, u) →
    (let got := (u.port p).credit.zipIdx.map fun ci => min 2048 (ci.1 + fld (k.data.map (·.1)) (2 * ci.2) 2)
     exec (.linkCredit p) s = .next ((u.setPort p { u.port p with credit := got }).pump p)))

/-- The transit switch (its choice of port and class where the rules leave a case: log entry 33): a packet for this module enters it; one for another leaves by an ACTIVE port of the role of its first differing coordinate, in
class 0 where it comes from a plot, the errors of its Stratus links counted and marked in its data (08 R296), or is counted where no port is ACTIVE, where it may not go, or where a fence stops it; the end of a hold lifts it. -/
def Obligations.SwitchRoutesPackets : Prop :=
  (∀ (s u : State) (p : Nat) (k : LinkPkt), (s.takeRecv p fun x => switched x && !s.switchHolds x) = some (k, u) →
    (10 < k.kind → exec (.wengaPacketArrival (.port p)) s = .next (u.countPort p 4 1)) ∧
    (k.kind ≤ 10 →
      (∀ k', u.egress k = .here k' → exec (.wengaPacketArrival (.port p)) s = .next (u.enterHere p k')) ∧
      (u.egress k = .discard → exec (.wengaPacketArrival (.port p)) s = .next (u.countPort p 4 1)) ∧
      (∀ role t k', u.egress k = .out role t k' → u.roleHeld role t k' = false →
        (∀ q, portChoice (u.activePorts role) (evenChoice k' t) = some q → exec (.wengaPacketArrival (.port p)) s =
          .next (u.enqueue q { k' with flags := k'.flags % 2 + 2 * u.nextClass k (some p) role, inlet := p })) ∧
        (portChoice (u.activePorts role) (evenChoice k' t) = none → exec (.wengaPacketArrival (.port p)) s = .next (u.countPort p 4 1))))) ∧
  (∀ (s u : State) (n d x y : Nat) (err : NetErr) (e : Sent) (k : LinkPkt), s.takePacket n = some (e, u) → e.pkt.dst = .away d →
    linkOf s.regs.device { e.pkt with body := e.pkt.body.mar err.poison } = some (k, x, y) → s.switchHolds k = false →
    (∀ f, u.fenceHit e.way = some f → exec (.wengaPacketArrival (.stratus ⟨n, err⟩)) s = .next (u.discard f)) ∧
    (u.fenceHit e.way = none →
      (let v := u.linkErrors (u.placeField (.port (u.nearestPort x y))) err
       ∀ role t k' q, v.egress k = .out role t k' → v.roleHeld role t k' = false → portChoice (v.activePorts role) (evenChoice k' t) = some q →
        exec (.wengaPacketArrival (.stratus ⟨n, err⟩)) s = .next (v.enqueue q { k' with flags := k'.flags % 2, inlet := u.nearestPort x y })))) ∧
  (∀ (s : State) (k : LinkPkt), k.way = none → (k.destDev = s.regs.device → s.egress k = .here k) ∧
    (k.destDev ≠ s.regs.device → (cellGet 0 s.regs.modroute k.destDev).getLsbD 11 = true → s.egress k = .discard) ∧
    (k.destDev ≠ s.regs.device → cellGet 0 s.regs.modroute k.destDev = 0 → ∀ role, s.regs.towards k.destDev = some role →
      s.egress k = .out role k.destDev k)) ∧
  (∀ (s : State) (role : Nat), s.swHeld = [] → (∀ p, (s.port p).waiting = []) → exec (.roleHoldExpiry role) s = .next { s with roleHolds := listDel role s.roleHolds })

/-- Streams: stream data becomes a message to the bound reader, stream credit a grant to the bound channel; image data joins its segment, which
passes when its digest is right. -/
def Obligations.StreamsDeliverAndImagesJoin : Prop :=
  (∀ (s u : State) (p : Nat) (k : LinkPkt), (s.takeRecv p fun x => x.kind == 6) = some (k, u) →
    (((u.parcels.flatMap (·.inStreams)).find? fun e => e.port == p && e.stream == k.stream) = none →
      exec (.streamData p) s = .next (u.countPort p 4 1)) ∧
    (∀ e, ((u.parcels.flatMap (·.inStreams)).find? fun e => e.port == p && e.stream == k.stream) = some e → u.streamTooLong e k.data.length = false →
      ∃ m : Message, exec (.streamData p) s = .next (u.putPacket ⟨.port p, .plot e.x e.y, 1, .msg m⟩) ∧ m.data = k.data ∧ m.x = e.x ∧ m.y = e.y ∧
        m.index = e.index % 16 ∧ (m.ring = true ↔ 16 ≤ e.index) ∧ m.srcPort = true ∧ m.srcCh = p ∧ m.srcX = e.stream)) ∧
  (∀ (s u : State) (p : Nat) (k : LinkPkt) (e : StreamEnd), (s.takeRecv p fun x => x.kind == 7) = some (k, u) →
    ((u.parcels.flatMap (·.outStreams)).find? fun e => e.port == p && e.stream == k.stream) = some e →
    exec (.streamCredit p) s = .next (u.putPacket ⟨.port p, .plot e.x e.y, 3, .grant (.channel u.regs.device e.x e.y e.index false) k.amount⟩)) ∧
  (∀ (s u : State) (p : Nat) (k : LinkPkt), (s.port p).imageHeld = [] → (s.takeRecv p fun x => x.kind == 8) = some (k, u) →
    (let n := (k.data.length + 31) / 32
     (((u.portSegs p).find? fun e => e.2.2.2.stream == k.stream) = none → exec (.imageData p) s = .next ((u.countPort p 4 1).imageCredit p n)) ∧
     (∀ num i g q, ((u.portSegs p).find? fun e => e.2.2.2.stream == k.stream) = some (num, false, i, g) → u.imageReady p k = true →
       u.parcel num = some q → q.num = num → i < q.segs.length → g.got.length + k.data.length ≤ g.total →
       (let got := g.got ++ k.data.map (·.1)
        (got.length < g.total → Answers (.imageData p) s fun t => ∃ q', t.parcel num = some q' ∧ q'.segs = q.segs.set i { g with got := got }) ∧
        (got.length = g.total → sha512 got = g.digest → Answers (.imageData p) s fun t => ∃ q', t.parcel num = some q' ∧
          q'.segs = q.segs.set i { g with got := [], passed := true })))))
end

