-- ==== Sys2Proof/Laws/Turn.lean ====
section
/-! SUPPORT. What taking the command in turn does, and what drawing a free value does. -/

namespace Sys2Proof.Machine

/-- The command in turn is one of those taken, of the opcode asked for, its processor at work; only the list of commands taken loses it. -/
theorem State.turn_spec {s u : State} {op : Nat} {c : Cmd} (h : s.turn op = some (c, u)) :
    c ∈ s.hif.taken ∧ c.op = op ∧ s.serves (procOfOp op) = true ∧ (opStream op = 0 → s.drainBusy = false) ∧
      u = { s with hif := { s.hif with taken := s.hif.taken.erase c } } := by
  simp only [State.turn] at h
  split at h
  · cases h
  · rename_i d hd
    split at h
    · cases h
    · rename_i hn
      injection h with h
      injection h with hc hu
      subst hc
      obtain ⟨h1, h2⟩ := not_or.mp hn
      obtain ⟨h2, h3⟩ := not_or.mp h2
      refine ⟨List.mem_of_find?_eq_some hd, Classical.not_not.mp h1, by simpa using h2, ?_, hu.symm⟩
      intro h0
      by_cases hb : s.drainBusy = true
      · exact absurd ⟨h0, Or.inr hb⟩ h3
      · simpa using hb

/-- A draw only moves the place in the supply of free values. -/
theorem State.draw_spec (s : State) : s.draw.2 = { s with freeCtr := s.freeCtr + 1 } := rfl

/-- A fresh nonce is the next free value. -/
theorem State.freshNonce_spec (s : State) :
    s.freshNonce = { s with dbg := { s.dbg with nonceAt := s.freeCtr }, freeCtr := s.freeCtr + 1 } := rfl

end Sys2Proof.Machine
end

