-- ==== Sys2Proof/Tests/Slice0.lean ====
section
/-! SUPPORT. Tests. First small states: a module that runs, with one command taken, with one plot at work. Then witnesses: for each statement
with hypotheses, a state and operands that meet them, clause by clause, at a boundary of the range where a clause has one. Then checks of single
steps against values worked out from the spec's words. -/

namespace Sys2Proof.Tests
open Sys2Proof Sys2Proof.Machine

set_option Elab.async false

/-! ## Small states -/

/-- A supplied domain. -/
def domainOn : Domain := { pwrEn := true, pwrOk := true, rstN := true }

/-- A module after S8: processors up, fields supplied, the release done. -/
def up : State :=
  { State.reset with
    procs := List.replicate 4 { Processor.reset with up := true }
    fields := List.replicate 48 { Field.reset with pwrEn := true, pwrOk := true, rstN := true }
    emcs := List.replicate 24 { Emc.reset with trained := true }
    clk := { Clk.reset with step := 16, ready := true, stage := 8, selected := true, aGood := true, bGood := true
                            clock := domainOn, mem := domainOn, link := domainOn, mainValid := true, built := true, stages := List.replicate 9 { Stage.reset with result := 2 } }
    pwr := { Pwr.reset with state := .active, netPoint := 4 } }

/-- A command as Alidade has copied it: no interrupt, sequence number 1. -/
def cmd (op : Nat) (ws : List Nat) : Cmd :=
  { seq := 1, vector := 0, noIrq := true, user := 7, op := op, body := ws.map (BitVec.ofNat 64) }

/-- A host interface with a ring of 64 entries at 0x1000 and commands taken. -/
def ring (l : List Cmd) : Hif := { Hif.reset with ringSet := true, busMaster := true, base := 0x1000, log := 6, next := 2, taken := l }

/-- The module with one command in turn. -/
def took (op : Nat) (ws : List Nat) : State := { up with hif := ring [cmd op ws] }

/-- What a command in turn shows. -/
def inHand (s : State) (op : Nat) (k : Cmd → State → Bool) : Bool :=
  match s.turn op with
  | some (c, u) => k c u
  | none => false

/-! ## Witnesses: the machine and the host interface -/

/-- The module in S1 at a reference count. -/
def booting (n : Nat) : State :=
  { up with clk := { up.clk with stage := 1, count := n, stages := up.clk.stages.set 1 { Stage.reset with result := 1 } } }

/-- Field 0 fenced on all sides. -/
def fencedSide : State := { up with fields := up.fields.modify 0 fun f => { f with side := 15 } }

/-- Fields, controllers and ports without power. -/
def dark (s : State) : State :=
  { s with fields := List.replicate 48 Field.reset, clk := { s.clk with mem := Domain.off, link := Domain.off } }

theorem witness_EmptyQueueTicks :
    (up.pending = [] ∧ up.clk.step ≠ 0 ∧ up.pwr.state ≠ .off ∧ 2 < up.clk.stage) ∧
    ((booting (stageBound 1)).pending = [] ∧ (booting (stageBound 1)).clk.step ≠ 0 ∧ (booting (stageBound 1)).pwr.state ≠ .off ∧
      (booting (stageBound 1)).clk.count ≤ ((booting (stageBound 1)).stageAt 1).start + stageBound 1) ∧
    (let s := booting (stageBound 1 + 1)
     s.pending = [] ∧ s.clk.step ≠ 0 ∧ s.pwr.state ≠ .off ∧ s.clk.stage ≤ 1 ∧ s.stageRuns s.clk.stage = true ∧
       (s.stageAt s.clk.stage).start + stageBound s.clk.stage < s.clk.count ∧ s.clk.stages.length = 9) := by decide +kernel
theorem witness_PartsKeptByEveryStep : State.reset.shaped = true ∧ step State.reset = .next State.reset.tick := ⟨by decide +kernel, rfl⟩
theorem witness_MemoriesKeptCanonical : up.canonical = true ∧ step up = .next up.tick := ⟨by decide +kernel, rfl⟩
theorem witness_FusesStayBlown : step up = .next up.tick := rfl
theorem witness_InterfaceResetsKeepTheRest : Instr.pcieLinkDown ∈ [Instr.perstN, .hotReset, .functionLevelReset, .pcieLinkDown] ∧
    up.hif.backlog.length < 1024 := by decide +kernel

/-- Slot 1 of the ledger holds a command; commit is COMMIT. -/
def slotted (commit : Nat) : State := { up with hif := { ring [] with next := 1, ledger := cellsWrite [] 0x1F8 (leBytes 8 commit) } }

def slotReady (s : State) : Bool :=
  s.serves .alidade && s.hif.busMaster && !s.hif.cut && (s.hif.ringSet || (s.hif.slotCmd (s.hif.next % 4096)).op == 1)
    && s.hif.slotWord (s.hif.next % 4096) 0xF8 != 0

theorem witness_LedgerTakesOrRefusesSlots :
    (let s := slotted (1 + 2 ^ 40 + 0x1A * 2 ^ 48)
     slotReady s = true ∧ slotRefusal s.hif 1 (s.hif.slotCmd 1) = none) ∧
    (let s := { slotted (1 + 2 ^ 40 + 2 ^ 48) with hif := { (slotted (1 + 2 ^ 40 + 2 ^ 48)).hif with ringSet := false } }
     slotReady s = true ∧ (s.hif.slotCmd 1).op = 1 ∧ slotRefusal s.hif 1 (s.hif.slotCmd 1) = none) ∧
    (let s := slotted (2 + 2 ^ 40 + 0x1A * 2 ^ 48)
     slotReady s = true ∧ (s.hif.slotCmd 1).seq ≠ s.hif.next) ∧
    (let s := slotted (1 + 2 ^ 32 + 2 ^ 40 + 0x1A * 2 ^ 48)
     slotReady s = true ∧ (s.hif.slotCmd 1).seq = s.hif.next ∧ 0 < bitsOf (s.hif.slotWord 1 0xF8) 39 32) ∧
    (let s := slotted (1 + 2 ^ 40 + 0x3F * 2 ^ 48)
     slotReady s = true ∧ (s.hif.slotCmd 1).seq = s.hif.next ∧ bodyMask (s.hif.slotCmd 1).op 0 = none) ∧
    up.hif.slotWord 1 0xF8 = 0 := by decide +kernel

theorem witness_CompletionsEnterTheRing :
    (inHand (took 0x1A [5]) 0x1A fun c u => decide (c.noIrq = true ∧ u.serves .alidade = true ∧ u.hif.ringSet = true ∧ u.hif.busMaster = true ∧
      u.hif.cut = false ∧ u.hif.backlog = [] ∧ u.hif.lostSince = 0 ∧ u.hif.word (u.hif.base + 64 * u.hif.entry) = 0)) = true ∧
    (inHand (took 0x01 [0x2000, 6, 0x10000, 256]) 0x01 fun c u => decide (c.w 0 % 4096 = 0 ∧ c.w 2 % 65536 = 0 ∧ 6 ≤ c.bits 1 4 0 ∧
      c.bits 1 4 0 ≤ 16 ∧ c.w 3 ≤ 256 ∧ c.noIrq = true ∧ u.hif.busMaster = true ∧ u.hif.cut = false ∧ u.hif.backlog = [] ∧
      u.hif.lostSince = 0 ∧ u.hif.word (c.w 0) = 0)) = true ∧
    (let e := up.answer (cmd 0x1A []) 1 0 [] none false
     let s := { up with hif := { ring [] with backlog := [e], mem := cellsWrite [] 0x1000 [1] } }
     s.posts = true ∧ s.hif.lostSince = 0 ∧ s.hif.backlog = [e] ∧ s.hif.irqOf e = none ∧ e.report = none ∧ s.hif.ringSet = true ∧
       s.hif.busMaster = true ∧ s.hif.cut = false ∧
       ({ s.hif with mem := [0x1000].foldl (fun m a => cellsWrite m a (zeros 8)) s.hif.mem } : Hif).word (s.hif.base + 64 * s.hif.entry) = 0) ∧
    (let s := took 0x02 [0]
     (s.hif.taken.find? fun c => procOfOp c.op == .alidade && c.readsHost) = some (cmd 0x02 [0]) ∧ (s.turn 0x02).isSome = true) := by
  decide +kernel

theorem witness_HostAccessesFollowTheirSizes :
    (up.hostUp = true ∧ 1 ≤ (zeros 256).length ∧ (zeros 256).length ≤ 256 ∧ 0xFFF00 + (zeros 256).length ≤ 0x100000) ∧
    (¬ (0 + 257 ≤ 0x100000 ∧ (true = true → 1 ≤ 257 ∧ 257 ≤ 256)) ∧ ¬ (0x1000000 ≤ 0) ∧ ¬ ((257 = 4 ∨ 257 = 8) ∧ 0 % 257 = 0)) ∧
    (¬ (0x100002 + 4 ≤ 0x100000) ∧ ¬ (0x1000000 ≤ 0x100002) ∧ ¬ ((4 = 4 ∨ 4 = 8) ∧ 0x100002 % 4 = 0)) := by decide +kernel
/-! ## An atlas of one plot (spec/10 R342 to R353) -/

/-- Bytes filled up with zeros. -/
def pad (n : Nat) (b : List Byte) : List Byte := b ++ zeros (n - b.length)

/-- A row of the section table: type, entries, offset, bytes. -/
def tableRow (typ count off bytes : Nat) : List Byte := pad 32 (leBytes 4 typ ++ leBytes 4 count ++ leBytes 8 off ++ leBytes 8 bytes)

/-- Sheet 0: VALID, one operation, a control 0x00. -/
def quietSheet : List Byte := pad 1024 (leBytes 4 (1 + 64))

/-- The atlas: parcel entry, plot list with plot (0, 0), sheet 0, and a drain tree of one leaf under one root. -/
def atlas : List Byte :=
  pad 0x100 (leBytes 8 0x3153414C54415141 ++ leBytes 2 1 ++ leBytes 2 0 ++ leBytes 4 4 ++ leBytes 8 0x940 ++ leBytes 8 0x740)
    ++ tableRow 1 1 0x180 256 ++ tableRow 2 1 0x280 16 ++ tableRow 3 1 0x2C0 1040 ++ tableRow 5 2 0x700 64
    ++ zeros 256 ++ pad 64 (zeros 16) ++ pad 0x440 (zeros 16 ++ quietSheet)
    ++ pad 32 (zeros 16 ++ leBytes 8 (0x1000 + 2 ^ 18)) ++ pad 32 (leBytes 8 0 ++ leBytes 8 1 ++ leBytes 8 (0x2000 + 2 ^ 15 + 2 ^ 18 + 2 ^ 24))
    ++ zeros 512

/-- The module with its place written, and one command taken. -/
def placed (op : Nat) (ws : List Nat) : State := { took op ws with regs := { Regs.reset with written := true } }

/-! ## Witnesses: parcels -/

/-- The parcel of plot (0, 0), number 1, running. -/
def parcelOne : Parcel :=
  { num := 1, digest := zeros 64, keySlot := 255, list := [(⟨0, 0, 0, 0⟩, 0)], stallLog := 0, drainTree := 0, windows := []
    swapBase := 0, swapLen := 0, trees := [0], spans := [], bindings := [], inStreams := [], outStreams := [], segs := []
    imagesDone := true, loadCmd := none, forRestore := false, phase := .running, ran := true, drain := none, lastOutcome := none
    fault := none, faultArea := none, quiet := 0, ends := 0, endPosted := false, uncommitted := false, expired := false, spent := false, swap := none }

/-- A plot of that parcel, in a state. -/
def plotIn (st : PState) : Plot := { Plot.reset with st := st, parcel := 1, gate := true }

/-- The module with the parcel and its plot. -/
def loaded (s : State) (p : Parcel) (q : Plot) : State := { s with parcels := [p], plots := [(0, q)] }

/-- A drain of the parcel in progress. -/
def aDrain : Drain :=
  { kind := 0, scan := false, withMemory := false, dest := 0, room := 0, start := 0, cmd := none, outcome := none, cycles := 0, notQuiet := 0
    firstNot := none, settling := false }

def atlasDigest : List Byte :=
  match Atlas.read atlas atlas.length with
  | .ok a => a.digest
  | .error _ => []

/-- A LOAD of that atlas with flags, in turn, that the checks accept, and what the module and the atlas show once it has repaired its reaches. -/
def loading (flags : Nat) (f : State → State) (k : State → Atlas → Bool) : Bool :=
  inHand (f (placed 0x02 [0, 0x940 + flags])) 0x02 fun c u => decide (u.clk.ready = true ∧ c.w 0 % 64 = 0 ∧ u.svc.testing = []) &&
    match u.checkAtlas atlas (c.bits 1 31 0) ⟨c.bits 1 43 32, c.flag 1 49, none, c.flag 1 48 || c.flag 1 50⟩ with
    | .ok a => k (if c.flag 1 49 then (u.reproject (u.voidReaches a)).1 else u) a
    | .error _ => false

theorem witness_LoadRefused :
    (inHand (placed 0x02 [0, 0x940]) 0x02 fun c u => match u.checkAtlas [0] (c.bits 1 31 0) ⟨0, false, none, false⟩ with
      | .ok _ => false
      | .error r => r.1 == 1) = true := by decide +kernel

theorem witness_LoadPlacesEveryPlot :
    (loading 0 id fun v a => v.freeNumber == some 1 && a.segs.isEmpty && ((a.ents 2).find? fun e => (entRect e.2).plots.any (v.unavailable 0 false)).isNone)
      = true := by decide +kernel

theorem witness_LoadWithoutImages :
    (loading (2 ^ 48) (fun s => { s with plots := [(0, { Plot.reset with kept := true, keptDigest := atlasDigest })], held := [⟨255, atlasDigest, []⟩] })
      fun v a => (v.held.find? fun h => h.digest == a.digest).any (fun h => h.num == 255) && !v.unavailable 0 false ⟨0, 0⟩ && (v.plot 0).kept &&
        (v.plot 0).keptDigest == a.digest && !({ v with plots := [] }.plot 0).kept) = true := by decide +kernel

theorem witness_LoadNotKept :
    (loading (2 ^ 48) id fun v a => ((a.ents 2).find? fun e => (entRect e.2).plots.any fun q =>
      !((v.plot (v.phys q.x q.y)).kept && (v.plot (v.phys q.x q.y)).keptDigest == a.digest)).isSome && v.freeNumber == some 1) = true := by decide +kernel

theorem witness_LoadWithoutNumber :
    ({ up with held := (List.range 255).map fun n => ⟨n + 1, [], []⟩ } : State).freeNumber = none := by decide +kernel

theorem witness_LoadUnavailable :
    (loading (2 ^ 49) (fun s => { s with nv := { s.nv with survey := { Survey.factory with dead := [0, 1] } } }) fun v a =>
      ((a.ents 2).find? fun e => (entRect e.2).plots.any (v.unavailable 0 false)).isSome) = true := by decide +kernel

theorem witness_ParcelsOpenAndAreReleased :
    (let s := loaded (took 0x03 [1]) { parcelOne with phase := .loaded, ran := false } (plotIn .loaded)
     (s.turn 0x03).isSome = true ∧ s.clk.ready = true ∧ (s.parcel 1).map (fun p => (p.imagesDone, p.phase, p.fault.isSome)) = some (true, .loaded, false)) ∧
    (let s := loaded (took 0x03 [1]) { parcelOne with imagesDone := false } (plotIn .loaded)
     (s.turn 0x03).isSome = true ∧ (s.parcel 1).map (·.imagesDone) = some false) ∧
    (let s := loaded (took 0x03 [1]) parcelOne (plotIn .running)
     (s.turn 0x03).isSome = true ∧ (s.parcel 1).map (fun p => (p.imagesDone, p.phase)) = some (true, .running)) ∧
    (let p := { parcelOne with phase := .drained, lastOutcome := some 0 }
     let s := loaded (took 0x06 [1]) p (plotIn .quiescent)
     (s.turn 0x06).isSome = true ∧ s.parcel 1 = some p ∧ p.fault = none ∧ p.spent = false ∧ s.countFaulted p = 0) ∧
    (let p := { parcelOne with phase := .drained, lastOutcome := some 0, spent := true }
     (loaded (took 0x06 [1]) p (plotIn .quiescent)).parcel 1 = some p ∧ p.spent ≠ false) ∧
    ((loaded up parcelOne (plotIn .loaded)).runAt 0 0).map (fun r => (r.p.st, r.p.restoredEnded)) = some (.loaded, false) ∧
    ((loaded up parcelOne { plotIn .loaded with restoredEnded := true }).runAt 0 0).map (fun r => (r.p.st, r.p.restoredEnded)) = some (.loaded, true) ∧
    (let s := loaded (took 0x04 [1]) parcelOne (plotIn .quiescent)
     (s.turn 0x04).isSome = true ∧ s.parcel 1 = some parcelOne ∧ parcelOne.drain = none ∧
       ∀ qp ∈ s.parcelPlots parcelOne, qp.2.st ≠ .running ∧ qp.2.st ≠ .draining) ∧
    (let d := { aDrain with kind := 2 }
     let p := { parcelOne with phase := .draining, drain := some d }
     let s := loaded (took 0x04 [1]) p (plotIn .quiescent)
     (s.turn 0x04).isSome = true ∧ s.parcel 1 = some p ∧ s.endWaits p d = false ∧
       ({ s with procs := s.procs.set (procIndex .theodolite) Processor.reset } : State).endWaits p d = true) ∧
    (let s := loaded (took 0x04 [1]) parcelOne (plotIn .running)
     (s.turn 0x04).isSome = true ∧ s.parcel 1 = some parcelOne ∧ ∃ qp ∈ s.parcelPlots parcelOne, qp.2.st = .running) ∧
    (let s := { took 0x04 [255] with held := [⟨255, zeros 64, [7]⟩] }
     (s.turn 0x04).isSome = true ∧ s.parcel 255 = none ∧ (s.held.find? fun g => g.num == 255).isSome = true) ∧
    (cmd 0x04 [255]).flag 0 9 = false ∧ (cmd 0x04 [255 + 2 ^ 9]).flag 0 9 = true := by
  refine ⟨?_, ?_, ?_, ?_, ?_, ?_, ?_, ?_, ?_, ?_, ?_, ?_⟩ <;> decide +kernel

theorem witness_DrainClosesTheGates :
    (let s := loaded (took 0x05 [1 + 2 ^ 8, 0x5FFFFFC000]) parcelOne (plotIn .running)
     (s.turn 0x05).isSome = true ∧ s.parcel 1 = some parcelOne ∧ (cmd 0x05 [1 + 2 ^ 8, 0x5FFFFFC000]).w 1 % 4096 = 0 ∧
       rootBad 0x5FFFFFC000 (parcelOne.plots.length * recordSize false) = false ∧ onGrid 0 0 = true ∧ s.alive (s.phys 0 0) = true) ∧
    (let c := cmd 0x05 [1 + 2 ^ 8, 0x5FFFFFD000]
     c.flag 0 8 = true ∧ c.w 1 % 4096 = 0 ∧ rootBad (c.w 1) (parcelOne.plots.length * recordSize (c.flag 0 9)) = true) ∧
    (let c := cmd 0x05 [1 + 2 ^ 8, 64]
     c.flag 0 8 = true ∧ c.w 1 % 4096 ≠ 0) ∧
    (let s := loaded (took 0x05 [1]) { parcelOne with drain := some aDrain } (plotIn .draining)
     (s.turn 0x05).isSome = true ∧ (s.parcel 1).map (·.drain.isSome) = some true) ∧
    (let s := loaded (took 0x0B [1, 0x1000, 0x5FFFFFF000]) parcelOne (plotIn .running)
     (s.turn 0x0B).isSome = true ∧ s.parcel 1 = some parcelOne ∧ edgePresent 0x1000 = true ∧ rootBad 0x1000 0x5FFFFFF000 = false) ∧
    (edgePresent 0x1000 = true ∧ rootBad 0x1000 0x5FFFFFF001 = true ∧ edgePresent 0x6000000000 = false) := by
  refine ⟨?_, ?_, ?_, ?_, ?_, ?_⟩ <;> decide +kernel

/-- The head of a record that plot (0, 0) takes: version 1, its logical place, the digest, the CRC. -/
def recordHead : List Byte :=
  let b := pad 0x100 (leBytes 4 1 ++ leBytes 4 0)
  b.take 0xFC ++ leBytes 4 (crc32c b)

set_option maxRecDepth 100000 in
theorem witness_RestoreTakesOrRefusesRecords :
    (let s := loaded (took 0x07 [1, 0x5FFFFFC000]) { parcelOne with phase := .loaded, ran := false } (plotIn .loaded)
     (s.turn 0x07).isSome = true ∧ (s.parcel 1).map (fun p => (p.phase, p.ran, p.fault.isSome)) = some (.loaded, false, false) ∧
       rootBad 0x5FFFFFC000 (parcelOne.plots.length * recordSize false) = false ∧ rootBad 0x5FFFFFD000 (parcelOne.plots.length * recordSize false) = true ∧
       (leNat ((((s.rootRead 0x5FFFFFC000 16 2).2).map (·.1)).drop 8)).testBit 2 = false ∧
       rootBad 0x5FFFFFC000 (parcelOne.plots.length * recordSize true) = true) ∧
    (let s := loaded up parcelOne (plotIn .loaded)
     (s.plot 0).refusesRecord (s.view 0) parcelOne.digest recordHead = none ∧ (s.plot 0).refusesRecord (s.view 0) parcelOne.digest [] = some 2) := by
  refine ⟨?_, ?_⟩ <;> decide +kernel

/-- The parcel with a swap staged. -/
def aSwap : Swap := { atlas := atlas, base := 0, opens := false, cmd := cmd 0x08 [1, 0, 0x940], segs := [] }

theorem witness_SwapsStageCancelAndTake :
    (let s := loaded (placed 0x08 [1, 0, 0x940]) parcelOne (plotIn .running)
     (inHand s 0x08 fun c u => decide (u.clk.ready = true ∧ u.parcel (c.bits 0 7 0) = some parcelOne ∧ c.w 1 % 64 = 0) &&
       (match u.checkAtlas atlas (c.bits 2 31 0) ⟨c.bits 2 43 32, false, some parcelOne, false⟩ with
        | .ok _ => true
        | .error _ => false) &&
       match u.checkAtlas [0] (c.bits 2 31 0) ⟨c.bits 2 43 32, false, some parcelOne, false⟩ with
       | .ok _ => false
       | .error _ => true) = true) ∧
    (let s := loaded (placed 0x08 [1, 0, 0x940]) { parcelOne with drain := some aDrain } (plotIn .draining)
     (s.turn 0x08).isSome = true ∧ (s.parcel 1).map (·.drain.isSome) = some true) ∧
    (let s := loaded (took 0x09 [1]) { parcelOne with swap := some aSwap } (plotIn .running)
     (s.turn 0x09).isSome = true ∧ (s.parcel 1).map (·.swap) = some (some aSwap)) ∧
    (let s := loaded (took 0x09 [1]) parcelOne (plotIn .running)
     (s.turn 0x09).isSome = true ∧ (s.parcel 1).map (·.swap) = some none) ∧
    (let p := { parcelOne with swap := some aSwap, endPosted := true }
     let s := loaded { up with regs := { Regs.reset with written := true } } p (plotIn .quiescent)
     s.parcel p.num = some p ∧ p.uncommitted = false ∧ (aSwap.segs.all (·.passed)) = true ∧
       (match Atlas.read aSwap.atlas aSwap.atlas.length with | .ok a => a.plots == [⟨0, 0⟩] | .error _ => false) = true ∧
       (p.plots.all fun q => s.alive (s.phys q.x q.y)) = true ∧
       ((p.plots.find? fun q => !({ s with fields := [] }).alive (({ s with fields := [] }).phys q.x q.y))).isSome = true) ∧
    (let p := { parcelOne with swap := some aSwap, endPosted := true, uncommitted := true }
     (loaded up p (plotIn .quiescent)).parcel p.num = some p ∧ parcelOne.endPosted = false) ∧
    (let p := { parcelOne with loadCmd := some (cmd 0x02 []), imagesDone := false }
     (loaded up p (plotIn .loaded)).parcel p.num = some p ∧ (p.segs.all (·.passed)) = true) ∧
    (let p := { parcelOne with loadCmd := some (cmd 0x02 []), imagesDone := false, segs := [⟨⟨0, 0, 0, 0⟩, 0, 64, 15, 7, [], [], false⟩] }
     (loaded up p (plotIn .loaded)).parcel p.num = some p ∧ (p.segs.all (·.passed)) = false) := by
  refine ⟨?_, ?_, ?_, ?_, ?_, ?_, ?_, ?_⟩ <;> decide +kernel

theorem witness_ReprojectKeepsLoadedReaches :
    (let s := loaded (took 0x0A [1199 + 767 * 2 ^ 11 + 1199 * 2 ^ 32 + 767 * 2 ^ 43]) parcelOne (plotIn .loaded)
     (s.turn 0x0A).isSome = true ∧ s.clk.ready = true ∧ rectOk (1199 + 767 * 2 ^ 11 + 1199 * 2 ^ 32 + 767 * 2 ^ 43) = true ∧ s.reachLoaded 0 = true ∧
       s.reachLoaded 36863 = false) ∧
    ({ up with plots := [(958463, { Plot.reset with st := .test })] } : State).reachTested 36863 = true := by
  refine ⟨?_, ?_⟩ <;> decide +kernel

/-- A plot that holds a queue entry. -/
def holding : Plot :=
  { plotIn .running with queues := (Plot.reset.queues).set 15 { Queue.reset with entries := [cleanData (zeros 32)] }
                         watch := { Watch.reset with moved := true } }

theorem witness_WatchdogMarksAndDeadlocks :
    (let s := loaded up parcelOne holding
     s.parcelAt 0 0 = some parcelOne ∧ parcelOne.phase = .running ∧ s.alive (s.phys 0 0) = true ∧ (s.plot 0).watch.moved = true ∧
       (let v := s.plot 0
        ((s.setPlot 0 { v with watch := { v.watch with moved := false } }).reportUp parcelOne ⟨0, 0⟩ 3 0 true).2 = true)) ∧
    (let s := loaded up parcelOne holding
     s.parcel parcelOne.num = some parcelOne ∧ s.watchArmed parcelOne = true ∧ (s.reportUp parcelOne ⟨0, 0⟩ 5 0 true).2 = true ∧
       ((s.parcelPlots parcelOne).any fun zp => zp.2.holdsWork) = true) ∧
    (let s := loaded up parcelOne (plotIn .faulted)
     s.watchArmed parcelOne = true ∧ (s.reportUp parcelOne ⟨0, 0⟩ 5 0 true).2 = true ∧ ((s.parcelPlots parcelOne).any fun zp => zp.2.holdsWork) = false) ∧
    (let q := { parcelOne with expired := true }
     (loaded up q holding).parcel q.num = some q ∧ q.drain = none ∧ q.ran = true) ∧
    (let q := { parcelOne with fault := some { cause := 1, first := 0, trap := [], cycle := 0, epoch := 0, rerun := false, reported := false } }
     (loaded up q (plotIn .faulted)).parcel q.num = some q ∧ (q.fault.any fun f => !f.reported) = true ∧ q.drain = none ∧ up.serves .theodolite = true) ∧
    (let q := { parcelOne with fault := some { cause := 1, first := 0, trap := [], cycle := 0, epoch := 0, rerun := false, reported := false }
                               drain := some { aDrain with kind := 0 } }
     (loaded up q (plotIn .faulted)).parcel q.num = some q ∧ q.drain = some { aDrain with kind := 0 } ∧ aDrain.outcome = none) ∧
    (parcelOne.fault.any fun f => !f.reported) = false := by
  refine ⟨?_, ?_, ?_, ?_, ?_, ?_, ?_⟩ <;> decide +kernel

theorem witness_DrainsEndAndAreReported :
    (let q := { parcelOne with phase := .draining, drain := some aDrain, quiet := 1 }
     let s := loaded up q { plotIn .quiescent with watch := { Watch.reset with quiet := true }, seq := { Seq.reset with ended := true } }
     s.parcel q.num = some q ∧ ((s.parcelPlots q).all fun qp => s.alive (s.phys qp.1.x qp.1.y) && qp.2.watch.quiet && qp.2.quiescentNow
       && decide (s.reportUp q qp.1 4 1 true = (s, true))) = true ∧ s.nothingInFlight q = true ∧ s.joinGoesOn q = false ∧ s.parcelAt 0 0 = some q ∧
       onGrid 0 0 = true ∧ s.powered (fieldOf 0 0) = true) ∧
    (let q := { parcelOne with phase := .draining, drain := some aDrain }
     let s := loaded up q holding
     s.parcel q.num = some q ∧ q.quiet = 0 ∧ ((s.parcelPlots q).any fun qp => !qp.2.quiescentNow) = true ∧ s.alive (s.phys 0 0) = true ∧
       ({ s with nimbus := [⟨0, 0, 0, 0, 0, 0, 0, 0, 0⟩] } : State).nothingInFlight q = false) ∧
    (let q := { parcelOne with phase := .draining, drain := some { aDrain with outcome := some 1, settling := true } }
     (loaded up q holding).parcel q.num = some q ∧ (loaded up q holding).joinGoesOn q = false ∧
       ({ loaded up q holding with nimbus := [⟨0, 0, 0, 0, 0, 0, 0, 0, 0⟩] } : State).joinGoesOn q = true) ∧
    (let q := { parcelOne with phase := .draining, drain := some { aDrain with outcome := some 0, cmd := some (cmd 0x05 [1]) } }
     let s := loaded up q (plotIn .quiescent)
     s.parcel q.num = some q ∧ q.fault = none ∧ s.markSuspects q = s ∧ s.endWaits q { aDrain with outcome := some 0, cmd := some (cmd 0x05 [1]) } = false ∧
       ({ s with procs := [] } : State).endWaits q { aDrain with kind := 2, outcome := some 2 } = true) ∧
    (let q := { parcelOne with ends := 1 }
     let s := loaded up q { plotIn .quiescent with seq := { Seq.reset with ended := true } }
     s.parcel q.num = some q ∧ q.phase = .running ∧ s.allEnded q = true ∧ q.endPosted = false) := by
  refine ⟨?_, ?_, ?_, ?_, ?_⟩ <;> decide +kernel

/-! ## Witnesses: host commands -/

theorem witness_EpochCloseLatchesEveryCounter :
    ((took 0x0C []).turn 0x0C).isSome = true ∧ (took 0x0C []).canonical = true ∧ (took 0x0C []).shaped = true ∧
    (took 0x0C []).selects .all 958463 = true ∧ (dark (took 0x0C [])).selects .all 958463 = false := by decide +kernel

theorem witness_ControlSpaceCommandsAndFixedClocks :
    ((inHand (took 0x0F [0 + 47 * 2 ^ 8 + 0x078 * 2 ^ 16 + 3 * 2 ^ 32]) 0x0F fun c u =>
       decide (ctrlTarget c = some (0, 47, 0x078, 3) ∧ u.ctrlReach 0 47 = true ∧ ¬ (0x084 < 0x078 + 4 * 3))) = true ∧
     (inHand (took 0x0F [2 + 15 * 2 ^ 8 + 0x018 * 2 ^ 16 + 4 * 2 ^ 32]) 0x0F fun c u =>
       decide (ctrlTarget c = some (2, 15, 0x018, 4) ∧ u.ctrlReach 2 15 = true ∧ ¬ (0x028 < 0x018 + 4 * 4))) = true ∧
     (inHand (took 0x0F [47 * 2 ^ 8 + 0x078 * 2 ^ 16 + 4 * 2 ^ 32]) 0x0F fun c u =>
       decide (ctrlTarget c = some (0, 47, 0x078, 4) ∧ u.ctrlReach 0 47 = true ∧ 0x078 ≤ 0x084 ∧ 0x084 < 0x078 + 4 * 4)) = true ∧
     (inHand (took 0x0F [2 + 15 * 2 ^ 8 + 0x02C * 2 ^ 16 + 2 ^ 32]) 0x0F fun c u =>
       decide (ctrlTarget c = some (2, 15, 0x02C, 1) ∧ u.ctrlReach 2 15 = true ∧ 0x02C < 0x02C + 4 * 1)) = true ∧
     (inHand (dark (took 0x0F [1 + 23 * 2 ^ 8 + 2 ^ 32])) 0x0F fun c u =>
       decide (ctrlTarget c = some (1, 23, 0, 1) ∧ u.ctrlReach 1 23 = false)) = true) ∧
    (inHand (took 0x10 [1 + 23 * 2 ^ 8 + 0x080 * 2 ^ 16 + 2 ^ 32, 2]) 0x10 fun c u =>
      decide (ctrlTarget c = some (1, 23, 0x080, 1) ∧ (c.w 1).testBit 0 = false ∧ 23 < u.emcs.length ∧ u.emcUp 23 = true)) = true ∧
    ((inHand { took 0x10 [2 + 15 * 2 ^ 8 + 0x080 * 2 ^ 16 + 2 ^ 32, 2] with ports := List.replicate 16 { Port.reset with st := .active } } 0x10 fun c u =>
       decide (ctrlTarget c = some (2, 15, 0x080, 1) ∧ 15 < u.ports.length ∧ u.portUp 15 = true ∧ u.roleOf 15 ≠ 7 ∧ (u.port 15).st = .active)) = true ∧
     (inHand (took 0x10 [47 * 2 ^ 8 + 2 ^ 32, 16]) 0x10 fun c u => decide (ctrlTarget c = some (0, 47, 0x000, 1) ∧ u.powered 47 = true)) = true ∧
     (inHand (took 0x10 [47 * 2 ^ 8 + 0x080 * 2 ^ 16 + 2 ^ 32, 1]) 0x10 fun c u => decide (ctrlTarget c = some (0, 47, 0x080, 1) ∧ u.powered 47 = true)) = true) ∧
    ((inHand (took 0x10 [0x040 * 2 ^ 16 + 2 ^ 32]) 0x10 fun c _ => decide (ctrlTarget c = some (0, 0, 0x040, 1) ∧ ctrlWritable 0 0x040 = false)) = true ∧
     (inHand (dark (took 0x10 [2 + 15 * 2 ^ 8 + 0x080 * 2 ^ 16 + 2 ^ 32])) 0x10 fun c u =>
       decide (ctrlTarget c = some (2, 15, 0x080, 1) ∧ ctrlWritable 2 0x080 = true ∧ u.ctrlReach 2 15 = false)) = true) ∧
    (inHand (took 0x0E [23]) 0x0E fun c u => decide (c.bits 0 5 0 < u.emcs.length ∧ c.bits 0 5 0 < 24)) = true ∧
    (inHand { took 0x0E [47] with ports := List.replicate 16 { Port.reset with st := .active } } 0x0E fun c u =>
      decide (32 ≤ c.bits 0 5 0 ∧ c.bits 0 5 0 < 48 ∧ (u.port (c.bits 0 5 0 - 32)).st = .active)) = true ∧
    (inHand (took 0x0E [32]) 0x0E fun c u => decide (32 ≤ c.bits 0 5 0 ∧ c.bits 0 5 0 < 48 ∧ (u.port (c.bits 0 5 0 - 32)).st ≠ .active)) = true ∧
    (inHand (took 0x11 [2 ^ 47, 3]) 0x11 fun c u =>
      decide (u.pwr.state ≠ .squall ∧ (u.field 47).live = true ∧ 47 < u.fields.length ∧ (c.w 0).testBit 47 = true ∧ (c.w 0).testBit 0 = false)) = true ∧
    ((took 0x12 [2 ^ 47]).turn 0x12).isSome = true := by decide +kernel

/-- The module with a firmware transaction staged. -/
def txn : Txn := { num := 1, image := some Image.factory, survey := none, select := true, fuses := [], step := 3, copyDev := 0, cmd := none, last := true }
def staged (w : Nat) : State := { took 0x14 [w] with nv := { Nv.reset with staged := [txn] } }

/-- An owner's key, 2^4096 - 2549 (a prime, so that its signatures can be written down), a module in Owner Locked with that key, and a bundle that asks
for bit 0 of fuse word 3, signed by it. -/
def ownerKey : List Byte := leBytes 512 (2 ^ 4096 - 2549)
def ownerWords : List (Nat × W32) :=
  (List.range 16).map fun i => (0x10 + i, BitVec.ofNat 32 (leNat (((sha512 ownerKey).drop (4 * i)).take 4)))
def ownedNv : Nv := { Nv.reset with fuses := (0, 1) :: ownerWords, secState := 1, running := { Image.factory with keyTable := ownerKey } }
def fuseBundle : List Byte :=
  pad 0x400 (pad 0x100 (leBytes 8 0x31304C444E425141 ++ leBytes 4 1 ++ leBytes 4 0 ++ leBytes 8 0x600 ++ leBytes 4 1) ++ leBytes 4 3 ++ leBytes 4 1)
    ++ beBytes 512 0x80867EB49D810383F7CF4284DCD20DFDB02EDC9C5CD1AD7DF997F8F53FD9D61081B9154771C7D8AF71077C9C12EB321521F830E26E3C9001EC8A408168F4B90724C947F6B209A983ED4B60496CD9C98BDC02E0560A95BC6C8308C40CE11AA4F3EC919A6D6A676FB5A810D4EDE86D18E084195C8EDEFD59DADD0EBD7C920A7AA8F36C06C2B8EBBA10D24EA7DFB1392CFD8A6DBC0B214602F156326995B922B935BE0818E5079FECD03773ABFB149B31C29E8525AD96532C349D85260255A153CB8DD40D7E8E6E8CACE235E44F8B169668956BAF4692431B466B23F31FDBDDB73DEF799B8221A1DB922E914FA25F81B1A1A48637AE281E658FCB8638BF49C9BC9B468171E8CC54956A89BAAD17FEBF2BB3246F646FBE22C5F11CC261BFBD64CD8B115BF3B8C08BBFBE0FF145281272621886AF7AF4BFE6E46ADD6794F9FDDB2CD5CF400717E95D2091C5728CE1E9A392A3724DB5A6866766781AAA12ACBE04960ED82AB161F8BECD56432CD15B261FCE1C5D88CDE52D4AF87435CBFAAC69B1D4339D89FA78A1AAAA63BAC761628E871B6E94F2EEEB52B6D6495E271462EAAC00A20C01A166A0E3BC6E5166E252836CFEBD552AE35594DE49A76211A7ABC536156D2AD54FF4346289AB9166A10F81AACBAE968A35627BE499D99381953B200BAC4E2C919601E0FEFC6872DD5FBB9E1F0B2F73DCC14A81A3DFD60FA387D678045A2E

/-- A firmware bundle of valid form without a signature. -/
def imageBundle : List Byte := pad 0x600 (leBytes 8 0x31304C444E425141 ++ leBytes 4 0 ++ leBytes 4 32 ++ leBytes 8 0x600)

theorem witness_FuseBundlePermitted :
    bundleOk fuseBundle 0x600 = true ∧ fld fuseBundle 8 4 = 1 ∧ ownedNv.fusesPermitted fuseBundle = true ∧ (ownedNv.fuseTxns fuseBundle).length = 1 := by
  refine ⟨?_, ?_, ?_, ?_⟩ <;> decide +kernel

/-- Which image is permitted hangs on Ryulal's key, to which the spec gives no value: where its signature verifies, this image is permitted. -/
theorem witness_ImageBundlePermitted :
    bundleOk imageBundle 0x600 = true ∧ fld imageBundle 8 4 ≠ 1 ∧
    (rsaVerify Config.firmwareKey (bundleRyulal imageBundle) (bundleSigned imageBundle) = true → Nv.reset.firmwarePermitted imageBundle = true) := by
  refine ⟨by decide +kernel, by decide +kernel, fun h => ?_⟩
  simp only [Nv.firmwarePermitted, Nv.permits, Image.ofBundle, h, Bool.true_and]
  decide +kernel

theorem witness_FirmwareStagesAndActivates :
    ((inHand { took 0x13 [0, 0x600] with nv := ownedNv } 0x13 fun c u => decide (c.bits 1 31 0 = 0x600 ∧ u.nvBlocked = false)) = true ∧
      fld [0] 8 4 ≠ 1 ∧ bundleOk [0] 0x600 = false ∧ bundleOk (pad 0x600 (fuseBundle.take 0x200)) 0x600 = true ∧
      ownedNv.fusesPermitted (pad 0x600 (fuseBundle.take 0x200)) = false ∧ ownedNv.work = [] ∧
      ({ took 0x13 [0, 0x600] with pwr := { up.pwr with blockMain := true } } : State).nvBlocked = true ∧ Nv.reset.journals.length = 2) ∧
    (((staged 2).turn 0x14).isSome = true ∧ (staged 2).nv.staged.head?.map (·.num) ≠ some ((cmd 0x14 [2]).w 0)) ∧
    (let s := staged 1
     (s.turn 0x14).isSome = true ∧ s.nv.staged = [txn] ∧ txn.num = (cmd 0x14 [1]).w 0 ∧ txn.step = 3 ∧ s.nv.work = [] ∧
       s.nv.due = none ∧ s.nvBlocked = false ∧ s.pwr.state ≠ .squall) ∧
    (let s := { took 0x15 [] with nv := { Nv.reset with lost := true } }
     (s.turn 0x15).isSome = true ∧ s.nv.lost = true) ∧ ((took 0x15 []).turn 0x15).isSome = true ∧ (took 0x15 []).nv.lost = false := by
  refine ⟨?_, ?_, ?_, ?_⟩ <;> decide +kernel

/-- The module at debug level Invasive. -/
def atLevel (n : Nat) (s : State) : State := { s with dbg := { Dbg.reset with level := n } }

theorem witness_AttestationAndDebugAccess :
    ((took 0x16 [1, 2, 3, 4]).turn 0x16).isSome = true ∧
    ((took 0x17 [8]).turnDebug 0).isSome = true ∧ (took 0x17 [8]).levelPermitted 2 = true ∧ (took 0x17 [12]).levelPermitted 3 = false ∧
    (inHand (took 0x17 [1, 64]) 0x17 fun c _ => decide (c.bits 0 1 0 = 1 ∧ c.w 1 % 64 = 0)) = true ∧
    ((took 0x17 [2]).turnDebug 2).isSome = true ∧ up.tapUp = true ∧ up.pwr.state ≠ .standby ∧ State.reset.clk.step = 0 ∧
    (atLevel 2 { up with pwr := Pwr.reset }).pwr.state = .standby ∧ (atLevel 2 { up with pwr := Pwr.reset }).invasive = true ∧ (atLevel 2 { up with pwr := Pwr.reset }).tapUp = true ∧
    0xFFFFFF + 1 ≤ regionRoom (.partition .isobar) ∧ up.dbg.level = 0 ∧ (atLevel 1 up).dbg.level ≠ 0 ∧
    procIndex .isobar < up.procs.length ∧ up.debugActs .isobar = false ∧ (atLevel 2 up).debugActs .isobar = true ∧
    ((atLevel 2 up).proc .isobar).up = true ∧
    (let s := (atLevel 2 up).setProc .isobar { Processor.reset with up := true, halted := true }
     s.debugActs .isobar = true ∧ (s.proc .isobar).halted = true) ∧ 0xFFFFF8 + 8 ≤ 0x1000000 := by decide +kernel

/-- The module with every port a gateway's and ACTIVE. -/
def gateways (op : Nat) (ws : List Nat) : State := { took op ws with ports := List.replicate 16 { Port.reset with st := .active } }

theorem witness_EdgeMemoryMovesByGateway :
    (inHand (gateways 0x19 [0xFFF, 4098, 12]) 0x19 fun c u => decide (u.edgeMoveOk c false = true ∧ c.w 1 ≤ (cleanData (zeros 4098)).length ∧
      (u.emcs.all fun e => !e.retired && e.pool.isEmpty) = true ∧ Emc.reset.retired = false ∧ Emc.reset.pool = [])) = true ∧
    (edgePieces (4098 / 4096 + 2) 0xFFF (cleanData (zeros 4098))).map (fun ad => (ad.1, ad.2.length)) = [(0xFFF, 1), (0x1000, 4096), (0x2000, 1)] ∧
    (inHand (gateways 0x18 [0, 64, 12]) 0x18 fun c u => decide (u.edgeMoveOk c true = true ∧ (u.rootRead 0 64 2).2.length = 64)) = true ∧
    (inHand (gateways 0x19 [0x5FFFFFFFFF, 2, 0]) 0x19 fun c u => !u.edgeMoveOk c false) = true ∧
    (inHand (gateways 0x18 [0x5FFFFFFFFF, 2, 0]) 0x18 fun c u => !u.edgeMoveOk c true) = true := by decide +kernel

/-- A test of one plot that passes, but for the adjacent plots n it found failing. -/
def testOf (ph n : Nat) : PlotTest := { phys := ph, selfFail := false, nbFail := BitVec.ofNat 4 n, links := 0, sig := 9 }

/-- The suspect plot 0, with or without its margin plot. -/
def suspected (u : Suspect) (q : Plot) : State := { up with plots := [(0, q)], svc := { Service.reset with suspects := [u] } }

/-- The last physical plot, as TEST names it. -/
def lastPlot : Nat := 1247 + 767 * 2 ^ 11 + 1247 * 2 ^ 32 + 767 * 2 ^ 43

/-- A TEST of the loaded plot 0 with 1,024 other plots queued. -/
def fullQueue : State :=
  { took 0x0D [0, 1] with plots := [(0, { Plot.reset with parcel := 1 })]
                          svc := { Service.reset with tests := (List.range 1024).map fun i => (i + 1, cmd 0x0D [1, 1]) } }

/-- Plot 0 in a state, its test queued; plot 0 under survey in a patrol test after n passes. -/
def queued (st : PState) : State :=
  { up with plots := [(0, { Plot.reset with st := st, accSel := 1 })], svc := { Service.reset with tests := [(0, cmd 0x0D [0, 1])], counts := [(cmd 0x0D [0, 1], 0, 0)] } }
def patrolled (n : Nat) : State :=
  { up with plots := [(0, { Plot.reset with st := .test, underSurvey := true })], svc := { Service.reset with testing := [(0, true)], passes := [(0, n)] } }
def suspectOf (m : Option Nat) : Suspect := { phys := 0, record := [], sheet := [], margin := m, sigs := [], second := none }

theorem witness_TestsAndRerunsJudgePlots :
    (let s := took 0x0D [lastPlot, 1]
     (s.turn 0x0D).isSome = true ∧ s.alive 958463 = true ∧ s.testsItself 958463 = true ∧ (s.plot 958463).st ≠ .test ∧ s.queuedTests.length ≤ 1024) ∧
    (let s := { took 0x0D [lastPlot, 1] with plots := [(958463, { Plot.reset with st := .test })]
                                             svc := { Service.reset with testing := [(958463, false)] } }
     (s.turn 0x0D).isSome = true ∧ s.alive 958463 = true ∧ s.testsItself 958463 = true ∧ (s.plot 958463).st = .test ∧ s.queuedTests.length ≤ 1024) ∧
    (let s := { took 0x0D [0, 1] with plots := [(0, { Plot.reset with parcel := 1 })] }
     (s.turn 0x0D).isSome = true ∧ s.alive 0 = true ∧ s.testsItself 0 = false ∧ s.queuedTests.length < 1024) ∧
    ((fullQueue.turn 0x0D).isSome = true ∧ fullQueue.alive 0 = true ∧ fullQueue.testsItself 0 = false ∧ (fullQueue.plot 0).st ≠ .test) ∧
    (let s := queued .idle
     (s.svc.tests.any fun t => t.1 == 0) = true ∧ s.serves .theodolite = true ∧ (s.plot 0).parcel = 0 ∧ (s.plot 0).st = .idle ∧ s.alive 0 = true) ∧
    (let s := { queued .test with svc := { (queued .test).svc with testing := [(0, false)] } }
     s.svc.tests = [(0, cmd 0x0D [0, 1])] ∧ s.svc.counts = [(cmd 0x0D [0, 1], 0, 0)] ∧ s.serves .theodolite = true ∧ s.inTest 0 false = true) := by
  refine ⟨?_, ?_, ?_, ?_, ?_, ?_⟩ <;> decide +kernel

theorem witness_PatrolsAndReruns :
    (physOk 958463 = true ∧ up.serves .theodolite = true ∧ up.alive 958463 = true ∧ (up.plot 958463).st = .idle ∧ (up.plot 958463).parcel = 0) ∧
    (let s := patrolled 143
     physOk 0 = true ∧ s.serves .theodolite = true ∧ s.inTest 0 true = true ∧ (s.plot 0).underSurvey = true ∧ s.patrolSides 0 0 = 0 ∧
       s.patrolSides 0 2 ≠ 0 ∧ ¬ (listGet s.svc.passes 0).getD 0 + 1 < 144 ∧ (listGet (patrolled 142).svc.passes 0).getD 0 + 1 < 144) ∧
    (let s := suspected { suspectOf none with sigs := [] } Plot.reset
     (s.svc.suspects.find? fun v => v.phys == 0 && v.margin.isNone).isSome = true ∧ s.serves .theodolite = true ∧ s.canRerun 0 = true ∧
       (suspected (suspectOf none) { Plot.reset with st := .test }).canRerun 0 = true ∧ s.marginFor 0 = some 25) ∧
    (let s := { suspected (suspectOf none) Plot.reset with
                plots := (0, { Plot.reset with accSel := 1 }) :: [25, 51, 77, 103, 129, 155].map (·, { Plot.reset with fence := true }) }
     s.canRerun 0 = true ∧ s.marginFor 0 = none) := by
  refine ⟨?_, ?_, ?_, ?_⟩ <;> decide +kernel

theorem eraseDups_of_nodup : ∀ l : List Nat, l.Nodup → l.eraseDups = l
  | [], _ => rfl
  | a :: l, h => by
    have h := List.nodup_cons.mp h
    rw [List.eraseDups_cons, List.filter_eq_self.mpr (fun b hb => by simpa using (fun (e : b = a) => h.1 (e ▸ hb))), eraseDups_of_nodup l h.2]

theorem fullQueue_tests : fullQueue.queuedTests = (List.range 1024).map (· + 1) := by
  have hm : fullQueue.svc.tests.map (·.1) = (List.range 1024).map (· + 1) := by decide +kernel
  have hn : ((List.range 1024).map (· + 1)).Nodup := List.nodup_range.map fun a b h => by simpa using h
  have ha : ((List.range 1024).map (· + 1)).all (fun ph => (fullQueue.plot ph).st != .test) = true := by decide +kernel
  rw [State.queuedTests, hm, eraseDups_of_nodup _ hn]
  exact List.filter_eq_self.mpr (List.all_eq_true.mp ha)

theorem witness_FullQueue : fullQueue.queuedTests.length = 1024 ∧ fullQueue.queuedTests.contains 0 = false := by
  rw [fullQueue_tests]
  exact ⟨by simp, by decide +kernel⟩

/-- The state in which a verdict on plot 0 is due, its margin plot 25, with three signatures and a second margin plot's. -/
def judged (a b c : W32) (second : Option (Nat × W32)) (surveyed : Bool) (k : State → Bool) : Bool :=
  let s := suspected { suspectOf (some 25) with sigs := [a, b, c], second := second } { Plot.reset with st := .test, underSurvey := surveyed }
  decide ((s.svc.suspects.find? fun v => v.phys == 0).map (fun u => (u.margin, u.sigs)) = some (some 25, [a, b, c]) ∧ s.serves .theodolite = true ∧
    (s.plot 0).st = .test) && k s

theorem witness_Verdicts :
    judged 1 2 1 none false (fun _ => true) = true ∧ judged 1 1 2 (some (51, 3)) false (fun _ => true) = true ∧
    judged 1 1 1 none true (fun s => (s.plot 0).underSurvey) = true ∧ judged 1 1 1 none false (fun s => !(s.plot 0).underSurvey) = true ∧
    judged 1 1 2 (some (51, 1)) false (fun s => !(s.plot 0).underSurvey) = true ∧
    judged 1 1 2 none false (fun s => !(s.plot 0).underSurvey && s.marginFor 0 == some 25) = true := by
  refine ⟨?_, ?_, ?_, ?_, ?_, ?_⟩ <;> decide +kernel

/-! ## Witnesses: operations of a plot -/

/-- An operation word (02 R76): class, operation, format, SRC_A, SRC_B, DST, COUNT, ADDR, PARAM. -/
def opw (cls op fmt a b d cnt addr param : Nat) : W128 :=
  BitVec.ofNat 128 (cls + op * 2 ^ 4 + fmt * 2 ^ 10 + a * 2 ^ 16 + b * 2 ^ 24 + d * 2 ^ 32 + cnt * 2 ^ 48 + addr * 2 ^ 64 + param * 2 ^ 96)

/-- The bytes of a sheet cache whose sheet 0 has a head (up to byte 0xC0) and operations. -/
def sheetCells (hd : List Byte) (ops : List W128) : List Host.Cell :=
  (((pad 0xC0 hd ++ ops.flatMap fun w => leBytes 16 w.toNat).zipIdx).filter fun bi => bi.1 != 0).map fun bi => (bi.2, bi.1)

/-- VALID and a number of operations. -/
def head (n : Nat) : List Byte := leBytes 4 (1 + n * 64)

def aFiring : Firing := { id := 0, sheet := 0, number := 0, slot := 0, rep := 0, issued := false, switch := false, ends := false }

/-- Plot (0, 0) at work: a sheet, one firing at its first slot. -/
def working (hd : List Byte) (ops : List W128) (k : Plot → Plot) : State :=
  loaded up parcelOne (k { plotIn .running with seq := { Seq.reset with cache := sheetCells hd ops, firings := [aFiring], next := 1 } })

/-- The run at plot (0, 0) of a state, and what it shows. -/
def atRun (s : State) (q : Run → Bool) : Bool := (s.runAt 0 0).any q

/-- The plot with one operation in turn, and what it shows. -/
def inTurn (w : W128) (k : Plot → Plot) (q : Run → Firing → Header → W128 → Bool) : Bool :=
  match (working (head 2) [w, 0] k).runAt 0 0 with
  | none => false
  | some r => match r.p.issuable with
    | none => false
    | some (f, h, w) => !opIllegal w && !(decide (r.p.group.state = 1 ∨ r.p.group.state = 2) && specKind (opDst w) == kChan && opClass w != 5)
        && q r f h w

def gets (g : Got) (k : Run → Flight → Data → Bool) : Bool :=
  match g with
  | .got r f d => k r f d
  | _ => false

theorem witness_PlotEventsStayAtTheirPlot : up.runAt 1200 0 = none ∧ Instr.ringMessageLand ⟨0, 0⟩ 7 ∈ plotEvents ⟨0, 0⟩ 0 7 ∧
    (working (head 1) [0] id).runAt 0 0 ≠ none := by decide +kernel

/-- An operation in flight. -/
def flying (w : W128) (x : Wait) (work : Bool) (out : List Data) : Flight :=
  { id := 0, firing := 0, sheet := 0, slot := 0, rep := 0, number := 0, word := w, trapA := 0, trapB := 0, done := 0, accs := none, pend := []
    aData := [], aScale := [], bData := [], bScale := [], aReady := false, part := [], out := out, outDone := 0
    wait := x, work := work, tracker := 0, grp := 0 }

/-- The plot with one operation in flight. -/
def inFlight (g : Flight) (k : Plot → Plot) : State :=
  working (head 1) [0] fun p => k { p with seq := { p.seq with ops := [g], firings := [{ aFiring with issued := true }] } }

/-- An enabled channel 0 to queue 1 of plot (1, 0), with credit. -/
def channelTo (credit : Nat) : Channel := { Channel.reset with dest := BitVec.ofNat 64 (1 * 4 + 2 ^ 28 + credit * 2 ^ 49 + 2 ^ 63) }
def withChan (c : Channel) (p : Plot) : Plot := { p with chans := p.chans.set 0 c }

/-- Ring 0 of 64 units at 0xC000 with one message of 32 bytes, whose header is read. -/
def withRing (p : Plot) : Plot :=
  { p with rings := p.rings.set 0 { Ring.reset with base := 0xC000, rsz := 6, enable := true, left := 32, tail := 2, used := 2, msgs := 1 } }

/-- The plot with an illegal word in turn: by its own rule, or a result for a channel within a commit group. -/
def illegalInTurn (w : W128) (k : Plot → Plot) : Bool :=
  atRun (working (head 2) [w, 0] k) fun r => r.p.issuable.any fun fhw =>
    (opIllegal fhw.2.2 || decide ((r.p.group.state = 1 ∨ r.p.group.state = 2) ∧ specKind (opDst fhw.2.2) = kChan ∧ opClass fhw.2.2 ≠ 5)) &&
      (opRows ⟨0, 0⟩).any fun e => rowMatches e.2.1 e.2.2.1 e.2.2.2 fhw.2.2

theorem witness_IllegalWordsFault :
    illegalInTurn (opw 8 2 0 0 0 0 0 0 (2 ^ 21)) id = true ∧ illegalInTurn (opw 9 0 0 0x80 0 0 0 0 0) id = true ∧
    illegalInTurn (opw 7 0 0 0xC0 0 0xE0 0 0 0) (fun p => { p with group := { Group.reset with state := 2 } }) = true := by
  refine ⟨?_, ?_, ?_⟩ <;> decide +kernel

theorem witness_OperationsIssueResumeAndComplete :
    (atRun (inFlight (flying 0 .none false []) fun p => { p with seq := { p.seq with firings := [], target := some 8 } }) fun r =>
      (r.p.flight 0).any fun g => !g.work && r.p.seq.target == some 8 && r.p.seq.ops.length == 1 && r.p.seq.firings.isEmpty && r.p.seq.gen.isNone &&
        r.p.st == .running) = true ∧
    (inTurn (opw 0 0 0 0 0 0 0 0 0) id fun _ f h w => decide (opClass w = 0 ∧ opCode w = 0 ∧ h.counted = false ∧ f.slot + 1 < h.opCount)) = true ∧
    (inTurn (opw 0 1 0 0 0 0 0 0 0) id fun _ _ _ w => decide (opCode w = 1)) = true ∧
    (inTurn (opw 0 2 0 0 0 0 0 0 0) id fun _ _ _ w => decide (opCode w = 2)) = true ∧
    (((inFlight (flying 0 .none false []) id).runAt 0 0).any fun r => (r.p.flight 0).any fun g => !g.work) = true ∧
    (((inFlight (flying (opw 6 0 0 0x40 0 0 0 0 32) .pop true []) withRing).runAt 0 0).any fun r => (r.p.flight 0).any fun g =>
      g.work && g.wait == .pop && r.p.opsLive && opClass g.word == 6 && (r.ringRelease (specIndex (opSrcA g.word)) (spLen (opParam g.word))).isSome) = true ∧
    (((inFlight (flying (opw 6 0 0 0x40 0 0 0 0 32) .pop true []) id).runAt 0 0).any fun r => (r.p.flight 0).any fun g =>
      g.work && g.wait == .pop && r.p.opsLive && opClass g.word == 6 && (r.ringRelease (specIndex (opSrcA g.word)) (spLen (opParam g.word))).isNone) = true ∧
    (((inFlight (flying (opw 5 0 0 0x80 0 0xE0 0 0xC000 32) (.credit 0) true [cleanData (zeros 32)]) (withChan (channelTo 1))).runAt 0 0).any fun r =>
      (r.p.flight 0).any fun g => g.work && g.wait == .credit 0 && r.p.opsLive && opClass g.word == 5 && opCode g.word == 0 && g.out.length == 1
        && g.done == 0 && g.grp == 0 && (r.badTarget (specIndex (opDst g.word))).isNone
        && (r.p.chan (specIndex (opDst g.word))).ready (spLen (opParam g.word))) = true ∧
    (((working (head 1) [0] id).runAt 0 0).any fun r => r.p.st == .running && !r.p.trap.info.getLsbD 0) = true ∧
    (((loaded up parcelOne (plotIn .loaded)).runAt 0 0).any fun r => decide (r.p.st ≠ .running ∧ r.p.st ≠ .draining)) = true := by
  refine ⟨?_, ?_, ?_, ?_, ?_, ?_, ?_, ?_, ?_, ?_⟩ <;> decide +kernel

/-! The hypotheses about runs of units, as functions: what they give meets the relations of the statements. -/

/-- Units done in turn, by a function that carries one out. -/
def unitsEval (e : Nat → Run → Flight → Option (Run × Flight)) : Nat → Nat → Run → Flight → Option (Run × Flight)
  | 0, _, r, f => some (r, f)
  | n + 1, k, r, f => match e k r f with
    | some (r1, f1) => unitsEval e n (k + 1) r1 f1
    | none => none

theorem unitsEval_done {e : Nat → Run → Flight → Option (Run × Flight)} {u : Nat → Run → Flight → Run → Flight → Prop}
    (he : ∀ k r f r' f', e k r f = some (r', f') → u k r f r' f') :
    ∀ n k r f r' f', unitsEval e n k r f = some (r', f') → UnitsDone u n k r f r' f'
  | 0, k, r, f, r', f', h => by
    simp only [unitsEval, Option.some.injEq, Prod.mk.injEq] at h
    exact ⟨h.1.symm, h.2.symm⟩
  | n + 1, k, r, f, r', f', h => by
    unfold unitsEval at h
    split at h
    · rename_i r1 f1 h1
      exact ⟨r1, f1, he _ _ _ _ _ h1, unitsEval_done he n _ _ _ _ _ h⟩
    · cases h

/-- Unit k of a move. -/
def moveEval (w : W128) (k : Nat) (r : Run) (f : Flight) : Option (Run × Flight) :=
  match r.fetch f (opSrcA w) k (mpUnit (opParam w)) with
  | .got r1 f1 d => match r1.deliver { f1 with out := [d], done := k + 1 } k d with
    | .on r' f2 => some (r', { f2 with out := [], outDone := k + 1, wait := .none })
    | _ => none
  | _ => none

theorem moveEval_done (w : W128) (k : Nat) (r : Run) (f : Flight) (r' : Run) (f' : Flight) (h : moveEval w k r f = some (r', f')) :
    MoveDone w k r f r' f' := by
  unfold moveEval at h
  split at h
  · rename_i r1 f1 d h1
    split at h
    · rename_i r2 f2 h2
      simp only [Option.some.injEq, Prod.mk.injEq] at h
      exact ⟨r1, f1, f2, d, h1, h.1 ▸ h2, h.2.symm⟩
    · cases h
  · cases h

/-- The operands of vector k. -/
def fetchEval (w : W128) (k : Nat) (r : Run) (f : Flight) : Option (Run × Flight × Data × Data) :=
  let sh := vecShape w
  let n := vecBytes sh.src (vecElems sh.src sh.dst)
  match r.fetch f (opSrcA w) k n with
  | .got r1 f1 dA => match (if sh.two then r1.fetch { f1 with aData := dA, aReady := true } (opSrcB w) k n
      else .got r1 { f1 with aData := dA, aReady := true } []) with
    | .got r2 f2 dB => some (r2, f2, dA, dB)
    | _ => none
  | _ => none

theorem fetchEval_fetched (w : W128) (k : Nat) (r : Run) (f : Flight) (r2 : Run) (f2 : Flight) (dA dB : Data)
    (h : fetchEval w k r f = some (r2, f2, dA, dB)) : VectorFetched w k r f r2 f2 dA dB := by
  unfold fetchEval at h
  dsimp only at h
  split at h
  · rename_i r1 f1 d h1
    split at h
    · rename_i r3 f3 d3 h2
      simp only [Option.some.injEq, Prod.mk.injEq] at h
      obtain ⟨rfl, rfl, rfl, rfl⟩ := h
      exact ⟨r1, f1, h1, h2⟩
    · cases h
  · cases h

/-- Vector k, with the NaN trap as it stands. -/
def vectorEval (w : W128) (k : Nat) (r : Run) (f : Flight) : Option (Run × Flight) :=
  match fetchEval w k r f with
  | some (r2, f2, dA, dB) =>
    let res := vectorResult w r2.free (vectorA w dA) (vectorB w dB)
    let d := cleanData ((vecShape w).dst.pack res)
    if (dA.any (·.2)) = false ∧ (dB.any (·.2)) = false ∧
        (r.p.nanTrap = true → vectorNan w r2.free k (vectorA w dA) (vectorB w dB) = none ∧ vectorMade w (vectorA w dA) res = none) then
      match (vectorDrawn w r2).deliver { f2 with done := k + 1, aReady := false, aData := [], out := [d] } k d with
      | .on r' f4 => some (r', { f4 with out := [], outDone := k + 1, wait := .none })
      | _ => none
    else none
  | none => none

theorem vectorEval_done (w : W128) (k : Nat) (r : Run) (f : Flight) (r' : Run) (f' : Flight) (h : vectorEval w k r f = some (r', f')) :
    VectorDone w k r f r' f' := by
  unfold vectorEval at h
  split at h
  · rename_i r2 f2 dA dB h1
    dsimp only at h
    split at h
    · rename_i hc
      split at h
      · rename_i r3 f4 h2
        simp only [Option.some.injEq, Prod.mk.injEq] at h
        exact ⟨r2, f2, dA, dB, f4, fetchEval_fetched _ _ _ _ _ _ _ _ h1, hc.1, hc.2.1, hc.2.2, h.1 ▸ h2, h.2.symm⟩
      · cases h
    · cases h
  · cases h

/-- Step k of a tensor operation: what it adds, whether an operand is poisoned, the NaN it consumes. -/
def stepEval (w : W128) (k : Nat) (r : Run) (f : Flight) : Option (Run × Flight × Contrib × Bool × Option Nat) :=
  if opCode w = 2 then
    match r.fetch f (opSrcA w) k 32 with
    | .got r' f1 d => some (r', { f1 with done := k + 1, aReady := false }, .words k (entryWords d).1 (entryWords d).2, d.any (·.2),
        tensorConsumed w k (r'.p.tile (tileIndex (opDst w) f.number)) d ((tensorA w).step k d []) ((tensorB w).step k [] []))
    | _ => none
  else
    match r.fetchSide f (tensorA w) (opSrcA w) k f.aData f.aScale with
    | (.got r1 f1 dA, sA) =>
      match r1.fetchSide { f1 with aData := dA, aScale := sA, aReady := true } (tensorB w) (opSrcB w) k f1.bData f1.bScale with
      | (.got r' f2 dB, sB) =>
        let a := (tensorA w).step k dA sA
        let b := (tensorB w).step k dB sB
        some (r', { f2 with aScale := sA, bData := dB, bScale := sB, done := k + 1, aReady := false }, .products (stepProducts a b),
          a.poison || b.poison, tensorConsumed w k (r'.p.tile (tileIndex (opDst w) f.number)) dA a b)
      | _ => none
    | _ => none

theorem stepEval_step (w : W128) (k : Nat) (r : Run) (f : Flight) (r' : Run) (f' : Flight) (c : Contrib) (poison : Bool) (nan : Option Nat)
    (h : stepEval w k r f = some (r', f', c, poison, nan)) : TensorStep w k r f r' f' c poison nan := by
  unfold stepEval at h
  split at h
  · rename_i hw
    split at h
    · rename_i r1 f1 d h1
      simp only [Option.some.injEq, Prod.mk.injEq] at h
      obtain ⟨rfl, rfl, rfl, rfl, rfl⟩ := h
      exact ⟨fun _ => ⟨f1, d, h1, rfl, rfl, rfl, rfl⟩, fun hn => absurd hw hn⟩
    · cases h
  · rename_i hw
    split at h
    · rename_i r1 f1 dA sA h1
      split at h
      · rename_i r2 f2 dB sB h2
        simp only [Option.some.injEq, Prod.mk.injEq] at h
        obtain ⟨rfl, rfl, rfl, rfl, rfl⟩ := h
        exact ⟨fun he => absurd he hw, fun _ => ⟨r1, f1, f2, dA, dB, sA, sB, h1, h2, ⟨rfl, rfl, rfl⟩, rfl⟩⟩
      · cases h
    · cases h

/-- n steps of a tensor operation, clean ones. -/
def stepsEval (w : W128) : Nat → Nat → Run → Flight → Option (List Contrib × Run × Flight)
  | 0, _, r, f => some ([], r, f)
  | n + 1, k, r, f => match stepEval w k r f with
    | some (r1, f1, c, poison, nan) =>
      if poison = false ∧ (r.p.nanTrap = true → nan = none) then (stepsEval w n (k + 1) r1 f1).map fun x => (c :: x.1, x.2) else none
    | none => none

theorem stepsEval_steps (w : W128) : ∀ n k r f cs r' f', stepsEval w n k r f = some (cs, r', f') → TensorSteps w n k r f cs r' f'
  | 0, k, r, f, cs, r', f', h => by
    simp only [stepsEval, Option.some.injEq, Prod.mk.injEq] at h
    exact ⟨h.1.symm, h.2.1.symm, h.2.2.symm⟩
  | n + 1, k, r, f, cs, r', f', h => by
    unfold stepsEval at h
    split at h
    · rename_i r1 f1 c poison nan h1
      split at h
      · rename_i hc
        obtain ⟨x, hx, he⟩ := Option.map_eq_some_iff.mp h
        simp only [Prod.mk.injEq] at he
        refine ⟨r1, f1, c, nan, x.1, hc.1 ▸ stepEval_step _ _ _ _ _ _ _ _ _ h1, hc.2, he.1.symm, ?_⟩
        exact stepsEval_steps w n _ _ _ _ _ _ (by rw [hx, ← he.2])
      · cases h
    · cases h

/-- The NaN trap on or off, and data in the pad at 0xC000. -/
def trapping (on : Bool) (d : Data) (p : Plot) : Plot := { p with nanTrap := on, mem := (p.mem.write 0xC000 d).mem }

/-- A tensor operation on entries of the pad at 0xC000, 32 bytes apart, into tile 0: 0x02, else on FP8. -/
def tensorWord (op fmt cnt : Nat) : W128 :=
  opw 1 op fmt 0x80 (if op = 2 then 0 else 0x80) 0xC0 cnt (0xC000 + 32 * 2 ^ 20) (if op = 2 then 0 else fmt * 2 ^ 26)

/-- A tensor operation in turn as its statement begins it: its run, its flight and its sums. -/
def tensorBegins (w : W128) (k : Plot → Plot) (q : Run → Flight → Accs → Bool) : Bool :=
  inTurn w k fun r f h w =>
    (let i := tileIndex (opDst w) f.number
     let r0 := if opCode w = 1 then { r.begun f h w with p := (r.begun f h w).p.setTile i zeroTile } else r.begun f h w
     let a := Accs.ofTile (tpAccMode (opParam w) == 1) (r0.p.tile i)
     decide (opClass w = 1) && q r0 { r.flightOf f h w with accs := some a } a)

/-- All its steps are clean. -/
def tensorClean (w : W128) (trap : Bool) : Bool :=
  tensorBegins w (trapping trap []) fun r f a => (stepsEval w (opCount w) 0 r f).any fun x => !makesNan w a x.1

/-- Its second step finds what it should. -/
def tensorFinds (w : W128) (d : Data) (q : Bool → Option Nat → Bool) : Bool :=
  tensorBegins w (trapping true d) fun r f a => (stepsEval w 1 0 r f).any fun x => decide (1 < opCount w) && !makesNan w a x.1 &&
    (stepEval w 1 x.2.1 x.2.2).any fun y => q y.2.2.2.1 y.2.2.2.2

/-- Its second and last step makes a NaN. -/
def tensorMakes (w : W128) (d : Data) : Bool :=
  tensorBegins w (trapping true d) fun r f a => (stepsEval w 2 0 r f).any fun x => match x.1 with
    | [c, c'] => opCount w == 2 && !makesNan w a [c] && ((sums w a [c]).resolve (opFpInf w) (tpAnchor (opParam w)) c').2.isSome
    | _ => false

theorem witness_TensorOperationsAccumulate :
    (inTurn (opw 1 3 0 0 0 0xC0 0 0 0) id fun _ _ _ w => decide (opClass w = 1 ∧ opCode w = 3)) = true ∧
    tensorClean (tensorWord 0 3 2) true = true ∧ tensorClean (tensorWord 1 3 2) true = true ∧ tensorClean (tensorWord 2 3 2) true = true ∧
    tensorClean (tensorWord 0 3 1) false = true ∧
    tensorFinds (tensorWord 2 3 2) (cleanData (zeros 32) ++ [(0, true)]) (fun poison nan => poison && nan.isNone) = true ∧
    tensorFinds (tensorWord 0 3 2) (cleanData (zeros 8 ++ [0x7F])) (fun poison nan => !poison && nan.isSome) = true ∧
    tensorFinds (tensorWord 1 3 2) (cleanData (zeros 8) ++ [(0x7F, true)]) (fun poison nan => poison && nan.isSome) = true ∧
    tensorMakes (tensorWord 1 4 2) (cleanData (zeros 8 ++ [0x7C])) = true := by
  refine ⟨?_, ?_, ?_, ?_, ?_, ?_, ?_, ?_, ?_⟩ <;> decide +kernel

/-- A vector or special-function operation on FP32 of the pad at 0xC000, its results written there: one vector where they are free values, else two. -/
def vectorWord (cls op : Nat) : W128 :=
  opw cls op 9 0x80 (if cls = 3 ∨ 8 ≤ op then 0 else 0x80) 0x80 (if cls = 2 ∧ (op = 3 ∨ op = 6 ∨ op = 7) then 1 else 2) (0xC000 + 64 * 2 ^ 20) (if cls = 2 ∧ op = 10 then 7 else 0)

def vectorDelivers (w : W128) (trap : Bool) : Bool :=
  inTurn w (trapping trap []) fun r f h w => (unitsEval (vectorEval w) (opCount w) 0 (r.begun f h w) (r.flightOf f h w)).isSome

/-- What its second vector finds: poison, a NaN that it consumes, one that it makes. -/
def vectorFinds (w : W128) (d : Data) (q : Bool → Option Nat → Option Nat → Bool) : Bool :=
  inTurn w (trapping true d) fun r f h w => (unitsEval (vectorEval w) 1 0 (r.begun f h w) (r.flightOf f h w)).any fun x =>
    opCount w == 2 && (fetchEval w 1 x.1 x.2).any fun y => q (y.2.2.1.any (·.2) || y.2.2.2.any (·.2))
      (vectorNan w y.1.free 1 (vectorA w y.2.2.1) (vectorB w y.2.2.2))
      (vectorMade w (vectorA w y.2.2.1) (vectorResult w y.1.free (vectorA w y.2.2.1) (vectorB w y.2.2.2)))

theorem witness_VectorOperationsDeliver :
    (([0, 1, 2, 4, 5, 8, 9, 10] : List Nat).all fun op => vectorDelivers (vectorWord 2 op) true) = true ∧
    (([3, 6, 7] : List Nat).all fun op => vectorDelivers (vectorWord 2 op) false) = true ∧ (([0, 2, 3, 4, 5] : List Nat).all fun op => vectorDelivers (vectorWord 3 op) false) = true ∧
    vectorDelivers (vectorWord 3 1) true = true ∧
    vectorFinds (vectorWord 2 0) (cleanData (zeros 64) ++ [(0, true)]) (fun poison _ _ => poison) = true ∧
    vectorFinds (vectorWord 2 1) (cleanData (zeros 64 ++ leBytes 4 0x7FC00000)) (fun poison nan _ => !poison && nan.isSome) = true ∧
    vectorFinds (vectorWord 3 1) (cleanData (zeros 64 ++ leBytes 4 0xBF800000)) (fun poison nan made => !poison && nan.isNone && made.isSome) = true ∧
    (Fmt.ofCode (opFmt (vectorWord 2 0)) = some .fp32 ∧ ([0, 1] : List Nat)[1]? = some 1) := by
  refine ⟨?_, ?_, ?_, ?_, ?_, ?_, ?_, ?_⟩ <;> decide +kernel

/-- A move of two lines at an address of the pad, in place. -/
def moveWord (addr : Nat) : W128 := opw 4 0 0 0x80 0 0x80 2 (addr + 64 * 2 ^ 20) 64

theorem witness_MovesDeliver :
    (inTurn (moveWord 0xC000) (trapping true (cleanData [1] ++ [(2, true)])) fun r f h w => decide (opClass w = 4 ∧ mpEdge (opParam w) = false) &&
      (unitsEval (moveEval w) (opCount w) 0 (r.begun f h w) (r.flightOf f h w)).isSome) = true ∧
    (inTurn (moveWord 0x31FC0) id fun r f h w => decide (opClass w = 4 ∧ mpEdge (opParam w) = false ∧ specKind (opSrcA w) = kMem ∧ 1 < opCount w) &&
      (unitsEval (moveEval w) 1 0 (r.begun f h w) (r.flightOf f h w)).any fun x => (x.1.badAccess none (x.2.addr 1) (mpUnit (opParam w))).isSome) = true := by
  refine ⟨?_, ?_⟩ <;> decide +kernel

theorem witness_MovesAndSendsDeliver :
    (inTurn (opw 5 0 0 0x80 0 0xE0 0 0xC000 32) (withChan (channelTo 1)) fun r f h w =>
      decide (opClass w = 5 ∧ opCode w = 0 ∧ r.p.group.state = 0) &&
      gets ((r.begun f h w).sendGot (r.flightOf f h w) (spLen (opParam w))) fun r1 _ _ =>
        (r1.badTarget (specIndex (opDst w))).isNone && (r1.p.chan (specIndex (opDst w))).ready (spLen (opParam w))) = true ∧
    (inTurn (opw 5 0 0 0x80 0 0xE0 0 0xC000 32) (fun p => { withChan (channelTo 1) p with group := { Group.reset with state := 1 } }) fun r f h w =>
      decide (opClass w = 5 ∧ opCode w = 0 ∧ specKind (opSrcA w) = kMem ∧ r.p.group.step = 0 ∧ r.p.group.state = 1 ∧
        r.badRange none (opAddr w + (r.flightOf f h w).rep) (spLen (opParam w)) = none ∧
        r.badTarget 0 = none ∧ r.p.group.sends.length < 8 ∧ (r.p.chan 0).closed = false ∧ (r.p.chan 0).ready 32 = true ∧ 0 < r.p.chans.length)) = true ∧
    (inTurn (opw 5 0 0 0x80 0 0xE0 0 0xC000 32) (fun p => { p with group := { Group.reset with state := 2 } }) fun r _ _ w =>
      decide (opClass w = 5 ∧ opCode w = 0 ∧ specKind (opSrcA w) = kMem ∧ r.p.group.step = 0 ∧ r.p.group.state = 2)) = true ∧
    (inTurn (opw 5 1 0 0xC0 0 0xE0 0 0 0) (withChan (channelTo 32)) fun r _ _ w =>
      decide (opClass w = 5 ∧ opCode w = 1 ∧ r.p.group.state = 0 ∧ r.badTarget 0 = none ∧ (r.p.chan 0).kind = 0 ∧ (r.p.chan 0).closed = false ∧
        32 ≤ (r.p.chan 0).credit)) = true ∧
    (inTurn (opw 6 0 0 0x40 0 0 0 0 32) withRing fun r f h w => decide (opClass w = 6) &&
      ((r.begun f h w).ringRelease (specIndex (opSrcA w)) (spLen (opParam w))).isSome) = true := by
  refine ⟨?_, ?_, ?_, ?_, ?_⟩ <;> decide +kernel

/-- An edge move of the line at local 0xC000, its pointer in sheet-local register 1. -/
def edgeWord (rd : Bool) : W128 := opw 4 0 0 (if rd then 0x61 else 0x80) 0 (if rd then 0x80 else 0x61) 1 0xC000 (64 + 2 ^ 7 + 2 ^ 8)
/-- A window over the first edge memory page, and a ticket of every controller. -/
def ticketed (p : Plot) : Plot :=
  { p with edge := { EdgePort.reset with windows := [⟨0, 0x1000, true⟩], tickets := List.replicate 24 1 } }

def edgeReady (rd : Bool) : Bool :=
  inTurn (edgeWord rd) ticketed fun r f h w =>
    (let reg := if rd then specIndex (opSrcA w) else specIndex (opDst w)
     let ptr := (r.p.getLoc f.sheet reg).toNat
     decide (opClass w = 4 ∧ mpEdge (opParam w) = true ∧ edgeIsRead w = rd ∧ opCount w = 1 ∧ r.p.group.state = 0 ∧
       edgeRangeFault r.p.edge.windows ptr 64 (!rd) = none ∧ r.badAccess none ((r.flightOf f h w).addr 0) 64 = none ∧
       0 < (r.p.edge.tickets[(edgePlace ptr).1]?).getD 0 ∧ 8 * f.sheet + reg < r.p.loc.length))

theorem witness_EdgeMovesSendRequests : edgeReady true = true ∧ edgeReady false = true := by
  refine ⟨?_, ?_⟩ <;> decide +kernel

/-- A finish of tile 0 into the pad at 0xC000, with FP_INF or not, and the finish control word of its sheet. -/
def finishing (ctl inf param : Nat) (k : Plot → Plot) (q : Run → Firing → Header → W128 → Bool) : Bool :=
  match (working (pad 0xA0 (head 2) ++ leBytes 4 ctl) [opw 7 0 0 0xC0 0 (0x80 + inf * 2 ^ 9) 0 0xC000 param, 0] k).runAt 0 0 with
  | none => false
  | some r => match r.p.issuable with
    | none => false
    | some (f, h, w) => !opIllegal w && decide (opClass w = 7) && q r f h w

/-- What a finish makes. -/
def finished (r : Run) (f : Firing) (w : W128) : FinResult :=
  (sheetFin r.p.seq.cache f.sheet).run (finOpOf w) (r.p.tile (tileIndex (opSrcA w) f.number)) (r.p.getLoc f.sheet (finOpOf w).loc)
    (r.p.getLoc f.sheet (((finOpOf w).loc + 1) % 8))

/-- The NaN trap on, and one word of tile 0. -/
def tileWith (v : AccV) (p : Plot) : Plot := { p with nanTrap := true, tile0 := p.tile0.set 5 v.toWord }

theorem witness_FinishDeliversItsUnits :
    (finishing (9 * 2 ^ 9) 0 0 (tileWith (.sat false)) fun r f h w =>
      (let par := sheetFin r.p.seq.cache f.sheet
       let o := finOpOf w
       let res := par.run o (r.p.tile (tileIndex (opSrcA w) f.number)) (r.p.getLoc f.sheet o.loc) (r.p.getLoc f.sheet ((o.loc + 1) % 8))
       let r1 : Run := { r with p := (r.begun f h w).p, free := r.free + 1 }
       let out := (par.plainUnits o (Config.unitPad r.free) res.vals).map cleanData
       decide (par.genBlock = 0 ∧ par.normEn = false ∧ par.act ≠ 10 ∧ r.p.nanTrap = true ∧ res.consumed = none ∧ res.produced = none ∧
         r.p.finishAhead (r.flightOf f h w) = false) &&
         match Run.deliverOut r1 { r.flightOf f h w with out := out, wait := .none } out with
         | .on _ _ => true
         | _ => false)) = true ∧
    (finishing (3 * 2 ^ 9 + 2 ^ 16) 0 0 id fun r f _ w =>
      (let par := sheetFin r.p.seq.cache f.sheet
       decide (par.genBlock ≠ 0 ∧ (finOpOf w).periodEnd = false ∧ r.p.seq.gen = none ∧ 1 < par.genTiles))) = true ∧
    (finishing (3 * 2 ^ 9 + 2 ^ 16) 0 8 id fun r f h w =>
      (let par := sheetFin r.p.seq.cache f.sheet
       let o := finOpOf w
       let res := par.run o (r.p.tile (tileIndex (opSrcA w) f.number)) (r.p.getLoc f.sheet o.loc) (r.p.getLoc f.sheet ((o.loc + 1) % 8))
       let r1 : Run := { r with p := (r.begun f h w).p, free := r.free + 1 }
       let out := (par.periodUnits (Config.unitPad r.free) [⟨par.ordered res.vals, o.fpInf, o.intWrap, res.rowScales⟩]).map cleanData
       decide (par.genBlock ≠ 0 ∧ o.periodEnd = true ∧ r.p.seq.gen = none ∧ par.normEn = false ∧ par.act ≠ 10) &&
         match Run.deliverOut r1 { r.flightOf f h w with out := out, wait := .none } out with
         | .on _ _ => true
         | _ => false)) = true ∧
    (finishing (9 * 2 ^ 9) 0 0 (tileWith .nan) fun r f _ w => r.p.nanTrap && (finished r f w).consumed.isSome) = true ∧
    (finishing (3 * 2 ^ 9) 1 0 (tileWith (.sat false)) fun r f _ w => r.p.nanTrap && (finished r f w).consumed.isNone && (finished r f w).produced.isSome)
      = true ∧
    (finishing (9 * 2 ^ 9) 0 0 (fun p => { p with seq := { p.seq with ops :=
        [{ flying (opw 7 0 0 0xC0 0 0xE0 0 0 0) (.credit 0) true [cleanData (zeros 32)] with firing := 7 }] } }) fun r f h w =>
      r.p.finishAhead (r.flightOf f h w) && decide ((sheetFin r.p.seq.cache f.sheet).genBlock = 0)) = true := by
  refine ⟨?_, ?_, ?_, ?_, ?_, ?_⟩ <;> decide +kernel

/-! ## Witnesses: beacons, contours, commit groups, firings, sheets, steering -/

/-- Beacon 31 at a value. -/
def beaconAt (v : Nat) (p : Plot) : Plot := { p with beacons := p.beacons.set 31 v }

theorem witness_BeaconOperationsAddSetAndWait :
    (opClass (opw 8 3 0 0 0 0 0 0 0) = 8 ∧ 2 < opCode (opw 8 3 0 0 0 0 0 0 0) ∧ 2 ^ 21 ≤ opParam (opw 8 0 0 0 0 0 0 0 (2 ^ 21)) ∧
      specKind (opSrcA (opw 8 0 0 0x20 0 0 0 0 0)) ≠ 0 ∧ specKind (opSrcB (opw 8 0 0 0 0x20 0 0 0 0)) ≠ 0 ∧ specKind (opDst (opw 8 0 0 0 0 0x20 0 0 0)) ≠ 0) ∧
    (inTurn (opw 8 0 0 0 0 0 0 0 (31 + 65535 * 32)) id fun _ _ _ w => decide (opClass w = 8 ∧ opCode w = 0 ∧ bitsOf (opParam w) 4 0 = 31)) = true ∧
    (inTurn (opw 8 1 0 0 0 0 0 0 (31 + 5 * 32)) id fun _ _ _ w => decide (opClass w = 8 ∧ opCode w = 1)) = true ∧
    (inTurn (opw 8 2 0 0 0 0 0 0 (31 + 5 * 32)) id fun _ _ _ w => decide (opClass w = 8 ∧ opCode w = 2)) = true ∧
    (atRun (inFlight (flying (opw 8 1 0 0 0 0 0 0 (31 + 5 * 32)) .beacon true []) (beaconAt 32772)) fun r =>
      decide (r.p.seq.ops.length = 1 ∧ r.p.beacon 31 < 65536 ∧ (r.p.beacon 31 + 65536 - 5) % 65536 < 32768)) = true ∧
    (atRun (inFlight (flying (opw 8 1 0 0 0 0 0 0 (31 + 5 * 32)) .beacon true []) (beaconAt 32773)) fun r =>
      decide (32768 ≤ (r.p.beacon 31 + 65536 - 5) % 65536)) = true := by
  refine ⟨?_, ?_, ?_, ?_, ?_, ?_⟩ <;> decide +kernel

/-- Slot 15 an active leaf of tree 0 with a USE, its ARRIVED bit and the status of a loss. -/
def leafAt (use : Nat) (arrived : Bool) (lost : Nat) (p : Plot) : Plot :=
  { p with slots := p.slots.set 15 { Slot.reset with w0 := BitVec.ofNat 64 (0x1000 + use * 2 ^ 18 + bit arrived 20 + 2 ^ 21), lost := lost } }

theorem witness_ContourOperationsFollowTheirSlot :
    (inTurn (opw 9 0 0 0 0 0 0 0 (15 + 7 * 16)) (leafAt 0 false 0) fun r _ _ w =>
      decide (opClass w = 9 ∧ opCode w = 0 ∧ (r.p.slot 15).programLeaf = true ∧ 15 < r.p.slots.length ∧ (r.p.slot 15).lost = 0)) = true ∧
    (inTurn (opw 9 0 0 0 0 0 0 0 15) (leafAt 0 false 1) fun r _ _ w => decide (opCode w = 0 ∧ (r.p.slot 15).programLeaf = true ∧ (r.p.slot 15).lost ≠ 0)) = true ∧
    (inTurn (opw 9 1 0 0 0 0x67 0 0 15) (leafAt 0 false 0) fun r _ _ w => decide (opCode w = 1 ∧ (r.p.slot 15).programLeaf = true ∧ (r.p.slot 15).arrived = false)) = true ∧
    (inTurn (opw 9 1 0 0 0 0x67 0 0 15) (leafAt 2 true 0) fun r _ _ w => decide (opCode w = 1 ∧ (r.p.slot 15).programLeaf = true ∧ (r.p.slot 15).arrived = true)) = true ∧
    (inTurn (opw 9 2 0 0 0 0x67 0 0 15) (leafAt 0 false 0) fun r _ _ w => decide (opCode w = 2 ∧ (r.p.slot 15).programLeaf = true ∧ (r.p.slot 15).lost = 0)) = true ∧
    (inTurn (opw 9 2 0 0 0 0x67 0 0 15) (leafAt 0 false 2) fun r _ _ w => decide (opCode w = 2 ∧ (r.p.slot 15).programLeaf = true ∧ (r.p.slot 15).lost ≠ 0)) = true ∧
    (atRun (inFlight (flying (opw 9 1 0 0 0 0x67 0 0 15) .contour true []) (leafAt 0 true 0)) fun r => (r.p.flight 0).any fun g =>
      g.work && g.wait == .contour && (r.p.slot 15).arrived) = true ∧
    (atRun (inFlight (flying (opw 9 1 0 0 0 0x67 0 0 15) .contour true []) (leafAt 0 false 0)) fun r => (r.p.flight 0).any fun g =>
      g.work && g.wait == .contour && !(r.p.slot 15).arrived) = true := by
  refine ⟨?_, ?_, ?_, ?_, ?_, ?_, ?_, ?_⟩ <;> decide +kernel

/-- A commit group in a state, of the parcel or not, voted or not. -/
def grouped (st : Nat) (parcel voted : Bool) (p : Plot) : Plot :=
  { leafAt 3 false 0 p with group := { Group.reset with state := st, parcel := parcel, voted := voted, slot := 15, opened := 1
                                                        stores := if st = 1 then [⟨0xC000, cleanData [1]⟩] else [] } }

theorem witness_CommitGroupsOpenAndClose :
    (inTurn (opw 10 0 0 0 0 0 0 0 (15 + 16)) (leafAt 3 false 0) fun r _ _ w => decide (opClass w = 10 ∧ opCode w = 0 ∧ r.p.group.state = 0 ∧
      (opParam w).testBit 4 = true ∧ (r.p.slot 15).role = 1 ∧ (r.p.slot 15).active = true ∧ (r.p.slot 15).use = 3)) = true ∧
    (inTurn (opw 10 1 0 0 0 0x67 0 0 0) (grouped 1 false false) fun r _ _ w => decide (opCode w = 1 ∧ r.p.group.state = 1 ∧ r.p.group.parcel = false)) = true ∧
    (inTurn (opw 10 1 0 0 0 0x67 0 0 0) (grouped 2 false false) fun r _ _ w => decide (opCode w = 1 ∧ r.p.group.state = 2 ∧ r.p.group.parcel = false)) = true ∧
    (inTurn (opw 10 2 0 0 0 0x67 0 0 0) (grouped 1 false false) fun r _ _ w => decide (opCode w = 2 ∧ r.p.group.state = 1 ∧ r.p.group.parcel = false)) = true ∧
    (inTurn (opw 10 2 0 0 0 0x67 0 0 0) (grouped 2 false false) fun r _ _ w => decide (opCode w = 2 ∧ r.p.group.state = 2 ∧ r.p.group.parcel = false)) = true ∧
    (inTurn (opw 10 2 0 0 0 0x67 0 0 0) (grouped 1 true true) fun r _ _ w => decide (opCode w = 2 ∧ r.p.group.state = 1 ∧ r.p.group.parcel = true ∧
      r.p.group.voted = true)) = true ∧
    (inTurn (opw 10 2 0 0 0 0x67 0 0 0) (grouped 2 true false) fun r _ _ w => decide (opCode w = 2 ∧ r.p.group.state = 2 ∧ r.p.group.parcel = true ∧
      r.p.group.voted = false)) = true := by
  refine ⟨?_, ?_, ?_, ?_, ?_, ?_, ?_⟩ <;> decide +kernel

/-- The group operations where they may not stand. -/
theorem witness_CommitGroupsMisused :
    (inTurn (opw 10 0 0 0 0 0 0 0 15) (grouped 1 false false) fun r _ _ w => decide (opClass w = 10 ∧ opCode w = 0 ∧ r.p.group.state ≠ 0)) = true ∧
    (inTurn (opw 10 0 0 0 0 0 0 0 (15 + 16)) (leafAt 2 false 0) fun r _ _ w => decide (opCode w = 0 ∧ (opParam w).testBit 4 = true ∧ (r.p.slot 15).use ≠ 3)) = true ∧
    (inTurn (opw 10 1 0 0 0 0x67 0 0 0) (grouped 1 true false) fun r _ _ w => decide (opCode w = 1 ∧ r.p.group.parcel = true)) = true ∧
    (inTurn (opw 10 2 0 0 0 0x67 0 0 0) id fun r _ _ w => decide (opCode w = 2 ∧ r.p.group.state = 0)) = true ∧
    (inTurn (opw 10 3 0 0 0 0x67 0 0 0) (grouped 1 false false) fun r _ _ w => decide (opCode w = 3 ∧ r.p.group.parcel = false)) = true := by
  refine ⟨?_, ?_, ?_, ?_, ?_⟩ <;> decide +kernel

/-- A join in flight, its slot returned with a result and status. -/
def joined (step st result status : Nat) : State :=
  inFlight (flying (opw 10 3 0 0 0 0x67 0 0 0) .join true []) fun p =>
    { grouped st true true p with
      group := { (grouped st true true p).group with step := step }
      slots := p.slots.set 15 { Slot.reset with w0 := BitVec.ofNat 64 (0x1000 + 3 * 2 ^ 18 + 2 ^ 21)
                                                w1 := BitVec.ofNat 64 (result * 2 ^ 16 + status * 2 ^ 32) } }

theorem witness_ParcelCommitsVoteDecideAndConfirm :
    (inTurn (opw 10 3 0 0 0 0x67 0 0 0) (grouped 1 true false) fun r _ _ w => decide (opClass w = 10 ∧ opCode w = 3 ∧ r.p.group.state = 1 ∧
      r.p.group.parcel = true ∧ r.p.group.voted = false)) = true ∧
    (inTurn (opw 10 3 0 0 0 0x67 0 0 0) (grouped 2 true true) fun r _ _ w => decide (opClass w = 10 ∧ opCode w = 3 ∧ r.p.group.state = 2 ∧
      r.p.group.parcel = true ∧ r.p.group.voted = true)) = true ∧
    (atRun (joined 2 1 0 0) fun r => r.p.joining.isSome && r.p.group.step == 2 && !(r.p.slot r.p.group.slot).arrived && r.p.group.state == 1 &&
      (r.p.slot r.p.group.slot).result == 0 && (r.p.slot r.p.group.slot).status == 0) = true ∧
    (atRun (joined 2 1 1 0) fun r => r.p.joining.isSome && r.p.group.step == 2 && !(r.p.slot r.p.group.slot).arrived && r.p.group.state == 1 &&
      (decide ((r.p.slot r.p.group.slot).result ≠ 0 ∨ (r.p.slot r.p.group.slot).status ≠ 0)) && (r.p.slot r.p.group.slot).lost == 0) = true ∧
    (atRun (joined 2 2 0 0) fun r => r.p.joining.isSome && r.p.group.step == 2 && !(r.p.slot r.p.group.slot).arrived && r.p.group.state == 2) = true ∧
    (atRun (joined 4 3 0 0) fun r => r.p.joining.isSome && r.p.group.step == 4 && !(r.p.slot r.p.group.slot).arrived) = true ∧
    (atRun (joined 4 3 0 2) fun r => r.p.joining.isSome && r.p.group.step == 4 && !(r.p.slot r.p.group.slot).arrived &&
      (r.p.slot r.p.group.slot).status == 2) = true := by
  refine ⟨?_, ?_, ?_, ?_, ?_, ?_, ?_⟩ <;> decide +kernel

/-- The plot with a sheet head, no firing. -/
def idleSheet (hd : List Byte) (k : Plot → Plot) : State :=
  working hd [0] fun p => k { p with seq := { p.seq with firings := [] } }

/-- A head: VALID, COUNTED, one operation; NEXT, FOLD_EN, EXIT_AFTER, EXIT; OUTER and INNER 1. -/
def foldHead (counted fold : Bool) (next exitAfter exit : Nat) : List Byte :=
  pad 16 (leBytes 4 (1 + bit counted 1 + 64)) ++ leBytes 8 (next + bit fold 3 + exitAfter * 2 ^ 20 + exit * 2 ^ 36) ++ leBytes 8 (1 + 2 ^ 16)

/-- The plot with one firing issued, which ends its visit or not. -/
def ending (hd : List Byte) (ends : Bool) (k : Plot → Plot) : State :=
  working hd [0] fun p => k { p with seq := { p.seq with firings := [{ aFiring with issued := true, ends := ends }] } }

def complete (s : State) (q : Run → Bool) : Bool :=
  atRun s fun r => match r.p.seq.firings with
    | f :: _ => f.issued && (r.p.seq.ops.all fun g => g.firing != f.id) && r.p.group.state == 0 && q r
    | [] => false

theorem witness_FiringsBeginAndComplete :
    (atRun (idleSheet (foldHead false false 0 0 0) id) fun r => r.p.mayFire) = true ∧
    (atRun (idleSheet (foldHead true false 0 0 0) id) fun r => r.p.mayIterate && !r.p.mayFire) = true ∧
    (complete (ending (foldHead false true 7 0 0) false id) fun _ => true) = true ∧
    (complete (ending (foldHead false true 7 0 0) true id) fun r => r.p.st == .running) = true ∧
    (complete (ending (foldHead true true 0 1 7) true id) fun r => (sheetHeader r.p.seq.cache r.p.seq.cur).foldEn) = true ∧
    (complete (ending (foldHead false true 8 0 0) true id) fun r => r.p.st == .running && r.p.seq.gen.isNone) = true ∧
    (complete (ending (foldHead false true 8 0 0) true fun p => { p with seq := { p.seq with ops := [{ flying 0 .none false [] with firing := 7 }] } }) fun r =>
      r.p.st == .running && !r.p.seq.ops.isEmpty) = true ∧
    (complete (ending (foldHead true false 0 0 0) true id) fun r => r.p.st == .running && r.p.seq.gen.isNone &&
      (sheetHeader r.p.seq.cache r.p.seq.cur).counted && !(sheetHeader r.p.seq.cache r.p.seq.cur).foldEn) = true ∧
    (atRun (loaded up parcelOne (plotIn .loaded)) fun r => !r.p.mayFire && !r.p.mayIterate) = true := by
  refine ⟨?_, ?_, ?_, ?_, ?_, ?_, ?_, ?_, ?_⟩ <;> decide +kernel

/-- A head that saves tile 0 at 0xC000. -/
def saveHead : List Byte := pad 12 (leBytes 4 (1 + 64 + 2 ^ 12)) ++ leBytes 4 0xC000

theorem witness_SwitchesLeaveAndEnterSheets :
    (atRun (idleSheet saveHead fun p => { p with seq := { p.seq with target := some 0 } }) fun r =>
      decide (r.p.seq.target = some 0 ∧ r.p.live = true ∧ r.p.seq.ops = [] ∧ r.p.seq.firings = [] ∧ r.p.seq.gen = none ∧
        sheetBad r.p.seq.cache 0 = false)) = true ∧
    (atRun (idleSheet saveHead fun p => { p with seq := { p.seq with target := some 7 } }) fun r =>
      decide (r.p.seq.target = some 7 ∧ r.p.live = true ∧ sheetBad r.p.seq.cache 7 = true)) = true ∧
    (atRun (idleSheet saveHead fun p => { p with seq := { p.seq with switching := some 0 } }) fun r => decide (r.p.seq.switching = some 0)) = true := by
  refine ⟨?_, ?_, ?_⟩ <;> decide +kernel

/-- A head with steering rule 1: its kind, token queue 14, data queues 0 and 15, channel 0. -/
def steerHead (kind : Nat) : List Byte := pad 0x28 (head 1) ++ leBytes 8 (kind + 14 * 4 + 0 * 2 ^ 6 + 15 * 2 ^ 10)

/-- A token in queue 14 and entries in queues 0 and 15. -/
def tokened (tok : Byte) (p : Plot) : Plot :=
  withChan (channelTo 1) { p with queues := ((p.queues.set 14 { Queue.reset with entries := [cleanData (tok :: zeros 31)] }).set 0
    { Queue.reset with entries := [cleanData (zeros 32)] }).set 15 { Queue.reset with entries := [cleanData (zeros 32)] } }

def steers (kind : Nat) (tok : Byte) : Bool :=
  atRun (idleSheet (steerHead kind) (tokened tok)) fun r =>
    (let q := r.p.steerRule 1
     r.p.steerLive && (r.p.steerState q).1 && q.kind == kind && (r.p.steerTo q).bind r.badTarget == none &&
       match r.popQueue q.t with
       | some (r1, t) => (r1.popQueue (if kind = 1 ∨ tokenBits t % 2 = 0 then q.d0 else q.d1)).isSome
       | none => false)

/-- A generation period of one tile, whose units go to DST d. -/
def periodTo (d : Nat) : GenPeriod :=
  { tiles := [⟨List.replicate 64 0, false, false, []⟩], word := opw 7 0 0 0xC0 0 d 0 0xC000 0, sheet := 0, slot := 0, rep := 0, number := 0 }

/-- The plot with a generation period of one tile, after its sheet's last firing. -/
def inPeriod : State :=
  idleSheet (pad 0xA0 (head 1) ++ leBytes 4 (3 * 2 ^ 9 + 2 ^ 16)) fun p =>
    { p with seq := { p.seq with
      target := some 0
      gen := some (periodTo 0x80) } }

/-- A period of one tile that goes to DST d, its sheet's target being t: what delivering its units comes to, with the flight that waits. -/
def flushes (d t : Nat) (st : PState) (k : Plot → Plot) (waits : Flight → Bool) (all : Bool) : Bool :=
  atRun (idleSheet (pad 0xA0 (head 1) ++ leBytes 4 (3 * 2 ^ 9 + 2 ^ 16)) fun p => k
    { p with st := st, seq := { p.seq with target := some t, gen := some (periodTo d) } }) fun r =>
    match r.p.seq.gen with
    | some g => r.p.seq.ops.isEmpty && r.p.seq.firings.isEmpty && r.p.seq.target == some t && r.p.st == st &&
        (let out := ((sheetFin r.p.seq.cache g.sheet).periodUnits (Config.unitPad r.free) g.tiles).map cleanData
         let r1 : Run := { r with p := { r.p with seq := { r.p.seq with gen := none, next := r.p.seq.next + 1 } }, free := r.free + 1 }
         match Run.deliverOut r1 (r.p.closeFlight g out) out with
         | .on _ _ => all
         | .stop _ f => waits f)
    | none => false

theorem witness_SteeringMovesEntriesAndPeriodsFlush :
    steers 1 0 = true ∧ steers 1 1 = true ∧ steers 1 3 = true ∧ steers 2 0 = true ∧ steers 2 3 = true ∧
    (atRun (idleSheet (steerHead 2) fun p => withChan { (channelTo 1) with dest := BitVec.ofNat 64 (1 * 4 + 1200 * 2 ^ 28 + 2 ^ 49 + 2 ^ 63) } (tokened 0 p)) fun r =>
      r.p.steerLive && (r.p.steerRule 1).kind == 2 && ((r.p.steerTo (r.p.steerRule 1)).bind r.badTarget).isSome) = true ∧
    (atRun inPeriod fun r => match r.p.seq.gen with
      | some g => g.tiles.length == 1 && r.p.seq.ops.isEmpty && r.p.seq.firings.isEmpty && r.p.seq.target == some 0 && r.p.st == .running &&
          (let par := sheetFin r.p.seq.cache g.sheet
           let out := (par.periodUnits (Config.unitPad r.free) g.tiles).map cleanData
           let r1 : Run := { r with p := { r.p with seq := { r.p.seq with gen := none, next := r.p.seq.next + 1 } }, free := r.free + 1 }
           match Run.deliverOut r1 (r.p.closeFlight g out) out with
           | .on _ _ => true
           | _ => false)
      | none => false) = true ∧
    flushes 0x80 8 .running id (fun _ => false) true = true ∧ flushes 0x80 8 .draining id (fun _ => false) true = true ∧
    flushes 0xE0 0 .running (withChan (channelTo 0)) (fun f => f.work) false = true := by
  refine ⟨?_, ?_, ?_, ?_, ?_, ?_, ?_, ?_, ?_, ?_⟩ <;> decide +kernel

/-! ## Witnesses: arrivals, edge memory, upkeep, trees -/

/-- A packet is the first of Stratus and may come. -/
def coming (k : Packet) (s : State) (q : State → Bool) : Bool :=
  match ({ s with stratus := [⟨k, []⟩] }).takePacket 0 with
  | some (e, u) => decide (e.pkt = k ∧ u.fenceHit e.way = none ∧ k.body.mar [] = k.body) && q (u.linkErrors (u.placeField k.dst) NetErr.none)
  | none => false

/-- A packet for plot (0, 0) from plot (1, 0), and what the plot shows when it comes. -/
def comingTo (b : PktBody) (p : Plot) (q : Run → Bool) : Bool :=
  coming ⟨.plot 1 0, .plot 0 0, 0, b⟩ (loaded up parcelOne p) fun u => atRun u q

/-- The writer of the readers here, and its message. -/
def aWriter : Writer := .channel 0 1 0 15 true
def msgOf (ring : Bool) (index n : Nat) : Message :=
  { dev := 0, x := 0, y := 0, ring := ring, index := index, data := cleanData (zeros n), srcDev := 0, srcX := 1, srcY := 0, srcCh := 15
    srcPort := false, signal := none, commit := false, short := false }

/-- A plot whose queue 15 and ring 7 have that writer. -/
def reader (q : Queue) (g : Ring) : Plot :=
  { plotIn .running with writers := (Plot.reset.writers.set 15 (some aWriter)).set 23 (some aWriter)
                         queues := Plot.reset.queues.set 15 q, rings := Plot.reset.rings.set 7 g }

def aRing : Ring := { Ring.reset with base := 0xC000, rsz := 4, enable := true, tail := 32, used := 32, msgs := 1 }

/-- The message of 992 bytes that lands in that ring. -/
def landing : Ring := { aRing with landing := some ⟨32, 32, msgOf true 7 992⟩ }

def queueComes (q : Queue) (sent : Bool) (k : Queue → Bool) : Bool :=
  comingTo (.msg { msgOf false 15 32 with srcX := if sent then 1 else 2 }) (reader q Ring.reset) fun r =>
    r.p.writer 15 == some aWriter && !r.p.isReset && aWriter.sent { msgOf false 15 32 with srcX := if sent then 1 else 2 } == sent && k (r.p.queue 15)

def ringComes (g : Ring) (k : Ring → Bool) : Bool :=
  comingTo (.msg (msgOf true 7 992)) (reader Queue.reset g) fun r =>
    r.p.writer (16 + 7) == some aWriter && !r.p.isReset && aWriter.sent (msgOf true 7 992) && (r.p.ring 7).landing.isNone && k (r.p.ring 7)

theorem witness_MessagesReachTheirReaders :
    queueComes Queue.reset false (fun _ => true) = true ∧ queueComes { Queue.reset with closed := true } true (·.closed) = true ∧
    queueComes { Queue.reset with entries := List.replicate 15 (cleanData (zeros 32)) } true (fun q => !q.closed && decide (q.entries.length < 16)) = true ∧
    ringComes { aRing with closed := true } (·.closed) = true ∧
    ringComes aRing (fun g => !g.closed && decide (32 ≤ ringUnits g.rsz - g.tail ∧ g.used + 32 ≤ ringUnits g.rsz ∧ 2 * 32 ≤ ringUnits g.rsz)) = true ∧
    ringComes { aRing with tail := 40, head := 32, used := 8 } (fun g => decide (¬ g.closed ∧ ringUnits g.rsz - g.tail < 32 ∧ 0 < ringUnits g.rsz - g.tail ∧
      g.used + (ringUnits g.rsz - g.tail) + 32 = ringUnits g.rsz ∧ 2 * 32 ≤ ringUnits g.rsz ∧ g.used ≠ 0)) = true ∧
    ringComes { aRing with tail := 40, head := 40, used := 0, msgs := 0 } (fun g => decide (¬ g.closed ∧ ringUnits g.rsz - g.tail < 32 ∧ 0 < ringUnits g.rsz - g.tail ∧
      g.used + (ringUnits g.rsz - g.tail) + 32 ≤ ringUnits g.rsz ∧ 2 * 32 ≤ ringUnits g.rsz ∧ g.used = 0 ∧ g.head = g.tail)) = true ∧
    ringComes { aRing with used := 33, tail := 32, head := 63 } (fun g => decide (¬ g.closed ∧ 32 ≤ ringUnits g.rsz - g.tail ∧ ringUnits g.rsz < g.used + 0 + 32)) = true ∧
    ringComes { aRing with rsz := 3, tail := 0, used := 0, head := 0 } (fun g => decide (¬ g.closed ∧ ringUnits g.rsz < 2 * 32)) = true ∧
    (msgOf true 7 992).data ≠ [] ∧
    (atRun (loaded up parcelOne (reader Queue.reset aRing)) fun r => (r.p.ring 7).landing.isNone) = true ∧
    (atRun (loaded up parcelOne (reader Queue.reset landing)) fun r => (r.p.ring 7).landing.any fun l => !l.msg.short) = true ∧
    (atRun (loaded up parcelOne (reader Queue.reset { landing with landing := some ⟨32, 32, { msgOf true 7 992 with short := true }⟩ })) fun r =>
      (r.p.ring 7).landing.any fun l => l.msg.short) = true := by
  refine ⟨?_, ?_, ?_, ?_, ?_, ?_, ?_, ?_, ?_, ?_, ?_, ?_, ?_⟩ <;> decide +kernel

theorem witness_NoticesAndWritesReachPlots :
    (comingTo (.grant aWriter 8191) (plotIn .running) fun r => !r.p.isReset) = true ∧
    (comingTo (.grant aWriter 1) (plotIn .test) fun r => r.p.isReset) = true ∧
    (comingTo (.close aWriter) (plotIn .running) fun r => !r.p.isReset) = true ∧
    (comingTo (.drop aWriter) (plotIn .running) fun r => !r.p.isReset) = true ∧
    (coming ⟨.plot 0 0, .port 15, 3, .grant (.stream 15 1023) 8191⟩ up fun _ => true) = true ∧
    (comingTo (.image 1 0 0 0x31FC0 (cleanData (zeros 64))) { plotIn .loaded with gate := false } fun r => r.p.takesImage 1 none 0x31FC0 64) = true ∧
    (comingTo (.image 1 0 0 0x31FC0 (cleanData (zeros 64))) (plotIn .running) fun r => !r.p.takesImage 1 none 0x31FC0 64) = true ∧
    (let s := loaded up parcelOne (plotIn .running)
     let u := (s.linkErrors 0 NetErr.none).crossWrite ⟨0, 0⟩ (Data.mar (cleanData [1]) [])
     u.2 = some (cleanData [1]) ∧ atRun u.1 (fun _ => true) = true ∧ s.ratioOk 0 = true ∧ (up.field (fieldOf 0 0)).side ≠ 0xF) ∧
    (let s := up.setField 0 Field.reset
     let u := (s.linkErrors 0 NetErr.none).crossWrite ⟨0, 0⟩ (Data.mar (cleanData [1]) [])
     u.2 = some (cleanData [1]) ∧ u.1.runAt 0 0 = none ∧ (s.field (fieldOf 0 0)).side ≠ 0xF) ∧
    (fencedSide.field (fieldOf 0 0)).side = 0xF ∧ (dark up).runAt 0 0 = none ∧ 0x31FFF + 1 ≤ 0x32000 ∧ ¬ 0x32000 + 1 ≤ 0x32000 := by
  refine ⟨?_, ?_, ?_, ?_, ?_, ?_, ?_, ?_, ?_, ?_, ?_, ?_, ?_⟩ <;> decide +kernel

/-- The module with memory clocks, one controller changed. -/
def withEmc (c : Nat) (f : Emc → Emc) : State :=
  { up with emcs := up.emcs.modify c f }

def aRequest (c : Nat) (wr : Bool) : EdgeReq :=
  { phys := 0, x := 0, y := 0, tracker := 0, write := wr, addr := 4096 * c, len := 64, locals := [0xC000]
    data := cleanData (if wr then leBytes 64 0x1234 else []), reserved := false }

/-- A plot with tickets of controller 23, a move that waits for one or not, and a tracker. -/
def mover (tickets : Nat) (waits : Bool) (left : Nat) : Plot :=
  { plotIn .running with
    edge := { Plot.reset.edge with tickets := Plot.reset.edge.tickets.set 23 tickets, trackers := [⟨0, left, some ⟨31, 1⟩⟩] }
    seq := { Seq.reset with ops := if waits then [flying (opw 4 2 0 0 0 0x80 0 0xC000 64) (.ticket 23) true []] else [] } }

theorem witness_EdgeTicketsAndRequestsAreServed :
    (coming ⟨.plot 0 0, .emc 23, 2, .ask 0 23 true⟩ (withEmc 23 fun e => { e with holders := List.replicate 2730 0 }) fun u =>
      decide (23 < u.emcs.length ∧ u.clk.mem.up = true ∧ (u.emc 23).asks = [] ∧ (u.emc 23).shasks = [] ∧ fieldOfPhys 0 < 48 ∧
        2730 ≤ (u.emc 23).holders.length)) = true ∧
    (coming ⟨.plot 0 0, .emc 23, 2, .ask 0 23 true⟩ (withEmc 23 fun e => { e with holders := List.replicate 2729 0 }) fun u =>
      decide ((u.emc 23).asks = [] ∧ (u.emc 23).shasks = [] ∧ (u.emc 23).holders.length < 2730)) = true ∧
    (comingTo (.ticket 23) (mover 0 false 1) fun r => (r.p.ticketWaiter 23).isNone) = true ∧
    (comingTo (.ticket 23) (mover 0 true 1) fun r => (r.p.ticketWaiter 23).isSome) = true ∧
    (atRun (loaded up parcelOne (mover 1 false 1)) fun r => (r.p.ticketWaiter 23).isNone && r.p.st == .running &&
      decide (0 < (r.p.edge.tickets[23]?).getD 0)) = true ∧
    (coming ⟨.plot 0 0, .emc 23, 2, .giveBack 0 23⟩ (withEmc 23 fun e => { e with holders := [0] }) fun u =>
      decide (23 < u.emcs.length ∧ u.clk.mem.up = true ∧ (u.emc 23).asks = [] ∧ (u.emc 23).shasks = [])) = true ∧
    (coming ⟨.plot 0 0, .emc 0, 2, .request 0 (aRequest 0 true)⟩ (withEmc 0 id) fun u => u.clk.mem.up) = true ∧
    (coming ⟨.plot 0 0, .emc 0, 2, .request 0 (aRequest 0 true)⟩ (dark up) fun u => !u.clk.mem.up) = true ∧
    (coming ⟨.plot 0 0, .emc 23, 2, .ask 0 23 true⟩ (dark up) fun u => !u.clk.mem.up) = true ∧
    (coming ⟨.plot 0 0, .emc 23, 2, .giveBack 0 23⟩ (dark up) fun u => !u.clk.mem.up) = true ∧
    (withEmc 0 fun e => { e with window := 1 }).emcServes 0 = false ∧
    ((withEmc 0 id).emcServes 0 = true ∧ ((withEmc 0 id).emc 0).pick = none) ∧
    (let s := withEmc 0 fun e => { e with pool := [aRequest 0 true] }
     s.emcServes 0 = true ∧ (s.emc 0).pick.map (·.1) = some (aRequest 0 true) ∧ (s.emc 0).retired = false) ∧
    (let s := withEmc 0 fun e => { e with pool := [aRequest 0 false], retired := true }
     s.emcServes 0 = true ∧ (s.emc 0).pick.map (·.1) = some (aRequest 0 false) ∧ (s.emc 0).retired = true) ∧
    (comingTo (.completion 0 { aRequest 0 false with data := cleanData (zeros 64) } false) (mover 0 false 1) fun r =>
      !r.p.isReset && r.p.st == .running && (r.p.edge.trackers.find? fun v => v.id == 0) == some ⟨0, 1, some ⟨31, 1⟩⟩) = true ∧
    (comingTo (.completion 0 (aRequest 0 true) false) (mover 0 false 2) fun r =>
      !r.p.isReset && r.p.st == .running && (r.p.edge.trackers.find? fun v => v.id == 0) == some ⟨0, 2, some ⟨31, 1⟩⟩) = true := by
  refine ⟨?_, ?_, ?_, ?_, ?_, ?_, ?_, ?_, ?_, ?_, ?_, ?_, ?_, ?_, ?_, ?_⟩ <;> decide +kernel

theorem witness_UpkeepRefillsReadsAndScrubs :
    up.canonical = true ∧ (23 < up.emcs.length ∧ up.emcUp 23 = true ∧ (dark up).emcUp 23 = false) ∧
    (physOk 958463 = true ∧ up.powered (fieldOfPhys 958463) = true ∧ (up.plot 958463).mem.wf = true ∧
      ∀ j, j < 8 → cellGet 0 (up.plot 958463).mem.syn (8 * 3327 + j) = 0) ∧
    (let s := withEmc 0 fun e => { e with scrubEn := true }
     s.emcServes 0 = true ∧ (s.emc 0).scrubEn = true ∧ (s.emc 0).retired = false ∧ edgePresent 4032 = true ∧ (edgePlace 4032).1 = 0 ∧
       edgePresent (4032 + 8 * 7) = true ∧ (edgePlace (4032 + 8 * 7)).1 = 0 ∧ s.edge.wf = true ∧ ∀ j, j < 8 → cellGet 0 s.edge.syn (4032 / 8 + j) = 0) := by
  refine ⟨?_, ?_, ?_, ?_⟩ <;> decide +kernel

/-- Slot 15 of plot (0, 0): a node of tree 7 with a role, ROOT, ACTIVE, EXPECT and COUNT; a leaf at slot 0 beside it. -/
def nodeAt (role : Nat) (root active : Bool) (expect count : Nat) : State :=
  loaded up parcelOne { plotIn .running with slots := (Plot.reset.slots.set 15 { Slot.reset with
    w0 := BitVec.ofNat 64 (7 + role * 2 ^ 12 + bit root 15 + bit active 21 + expect * 2 ^ 24 + count * 2 ^ 35) }).set 0 { Slot.reset with
    w0 := BitVec.ofNat 64 (7 + 2 ^ 12 + 2 ^ 20 + 2 ^ 21) } }

/-- A tally packet for a slot of plot (0, 0). -/
def tallyTo (kind slot : Nat) : TallyPkt :=
  { srcX := 0, srcY := 0, x := 0, y := 0, slot := slot, kind := kind, tree := 7, status := 0, tally := 0xFFFF }

/-- That packet is first on Nimbus, may come, and finds a slot. -/
def tallies (t : TallyPkt) (s : State) (q : State → Slot → Bool) : Bool :=
  (({ s with nimbus := [t] }).nimbus[0]?) == some t && (s.tallyStop t).isNone &&
    match s.slotFor t.x t.y t.slot t.tree with
    | some (_, v) => q s v
    | none => false

/-- The state with every slot of its plots lost. -/
def slotsLost (s : State) : State := { s with plots := s.plots.map fun pp => (pp.1, { pp.2 with slots := pp.2.slots.map fun v => { v with lost := 2 } }) }

theorem witness_TalliesRiseAndReturn :
    (tallies (tallyTo 0 15) (nodeAt 4 true false 1 0) fun _ v => v.role != 1 && !v.active) = true ∧
    (tallies (tallyTo 0 15) (nodeAt 4 true true 2 0) fun _ v => v.role != 1 && v.active && decide (v.count + 1 < v.awaits)) = true ∧
    (tallies (tallyTo 0 15) (nodeAt 4 true true 2 1) fun _ v => v.role != 1 && v.active && v.root && decide (v.awaits ≤ v.count + 1)) = true ∧
    (tallies (tallyTo 0 15) (slotsLost (nodeAt 4 true true 2 1)) fun _ v => v.role != 1 && v.lost != 0) = true ∧
    (tallies (tallyTo 1 0) (slotsLost (nodeAt 4 true true 2 1)) fun _ v => v.role == 1 && v.lost != 0) = true ∧
    (let s := { nodeAt 2 false true 1 0 with plots := (nodeAt 2 false true 1 0).plots.map fun pp =>
        (pp.1, { pp.2 with slots := pp.2.slots.set 1 { Slot.reset with w0 := BitVec.ofNat 64 (7 + 4 * 2 ^ 12 + 2 ^ 15 + 2 ^ 21 + 2 ^ 24) } }) }
     tallies (tallyTo 0 15) s fun s v => v.role != 1 && v.active && !v.root && decide (v.awaits ≤ v.count + 1) &&
       (parentOf ((s.setSlotAt 0 15 (v.setCount 0 0)).nodes v.tree) ⟨0, 0, 0, 15, v⟩).isSome) = true ∧
    (fencedSide.tallyStop { tallyTo 0 15 with srcX := 1199 }).isSome = true ∧
    (tallies (tallyTo 1 15) (nodeAt 4 true true 2 0) fun _ v => v.role != 1 && v.active) = true ∧
    (tallies (tallyTo 1 0) (nodeAt 4 true true 2 0) fun _ v => v.role == 1 && v.active) = true := by
  refine ⟨?_, ?_, ?_, ?_, ?_, ?_, ?_, ?_, ?_⟩ <;> decide +kernel

/-- What MODROUTE and the ports make of a packet for another device. -/
theorem probe_destDev (d : Nat) : bitsOf (BitVec.ofNat 64 (globalAddr d 0 0 0)).toNat 48 39 = d % 1024 := by
  simp only [bitsOf, globalAddr, BitVec.toNat_ofNat, Nat.shiftRight_eq_div_pow, Nat.zero_mul, Nat.add_zero]
  rw [show (2 : Nat) ^ 64 = 2 ^ 39 * 2 ^ 25 from Nat.pow_add 2 39 25, show 48 + 1 - 39 = 10 from rfl, Nat.mul_comm d,
    Nat.mul_mod_mul_left, Nat.mul_div_cancel_left _ (Nat.two_pow_pos 39), Nat.mod_mod_of_dvd _ ⟨2 ^ 15, Nat.pow_add 2 10 15⟩]

theorem egress_unrouted (s : State) (k : LinkPkt) (hw : k.way = none) (hd : k.destDev ≠ s.regs.device) (hm : s.regs.modroute = []) :
    s.egress k = (s.regs.towards k.destDev).elim .discard fun role => .out role k.destDev k := by
  simp only [State.egress, hw, hm, reduceCtorEq, if_false, Option.getD_none, hd, cellGet, listGet, show (0 : BitVec 32).getLsbD 11 = false from rfl,
    show (0 : BitVec 32).getLsbD 10 = false from rfl, Bool.false_eq_true, false_and]
  cases s.regs.towards k.destDev <;> rfl

theorem hasRoute_of_no_port (s : State) (d : Nat) (hp : ∀ p < 16, (s.port p).st ≠ .active) (hm : s.regs.modroute = []) (hd : d % 1024 ≠ s.regs.device) :
    s.hasRoute d = false := by
  have ha : ∀ role, s.activePorts role = [] := fun role => List.filter_eq_nil_iff.mpr fun p h => by
    simpa using fun _ => hp p (List.mem_range.mp h)
  rw [State.hasRoute, egress_unrouted s _ rfl (by rw [LinkPkt.destDev, probe_destDev]; exact hd) hm]
  cases s.regs.towards _ with
  | none => rfl
  | some role => exact congrArg (fun l => !List.isEmpty l) (ha role)

/-- A waypoint that is the module itself: the packet has arrived. -/
theorem hasRoute_via_self (s : State) (d : Nat) (m : BitVec 32) (hd : d % 1024 ≠ s.regs.device) (hm : cellGet 0 s.regs.modroute (d % 1024) = m)
    (h11 : m.getLsbD 11 = false) (h10 : m.getLsbD 10 = true) (ho : m.toNat % 1024 = s.regs.device) : s.hasRoute d = true := by
  have key : ∀ k : LinkPkt, k.way = none → k.destDev = d % 1024 → (s.egress k).goes s = true := by
    intro k hw hk
    simp only [State.egress, hw, hk, hd, hm, h11, h10, ho, reduceCtorEq, if_false, if_true, Option.getD_none, Option.getD_some, Bool.false_eq_true,
      and_self, Egress.goes]
  exact key _ rfl (by rw [LinkPkt.destDev, probe_destDev])

/-- Device 0, or 1 where the owner's number names 0: a module that does not own tree 7. -/
def notOwner : Nat := if Config.treeOwner 7 % 1024 = 0 then 1 else 0

theorem notOwner_spec : Config.treeOwner 7 % 1024 ≠ notOwner ∧ Config.treeOwner 7 ≠ notOwner := by
  unfold notOwner
  split <;> omega

/-- A node of tree 7 that spans modules, on that device. -/
def spanning (role count device : Nat) : State :=
  let s := nodeAt role true true 2 count
  { s with plots := s.plots.map fun pp => (pp.1, { pp.2 with slots := pp.2.slots.map fun v => { v with w0 := v.w0 ||| 0x400000#64 } })
           regs := { s.regs with device := device } }

theorem witness_OwnerOutOfReach :
    ((spanning 4 1 notOwner).nodes 7).any (fun n => n.slot.role == 5) = false ∧ ((spanning 4 1 notOwner).nodes 7).any (fun n => n.slot.spans) = true ∧
    (spanning 4 1 notOwner).canonical = true ∧ Config.treeOwner 7 ≠ (spanning 4 1 notOwner).regs.device ∧
    (spanning 4 1 notOwner).hasRoute (Config.treeOwner 7) = false := by
  refine ⟨by decide +kernel, by decide +kernel, by decide +kernel, notOwner_spec.2, hasRoute_of_no_port _ _ ?_ rfl notOwner_spec.1⟩
  decide +kernel

/-- With the route that leads through the module itself, which every packet takes. -/
theorem witness_OwnerInReach :
    let s : State := { up with regs := { Regs.reset with device := notOwner, modroute := [(Config.treeOwner 7 % 1024, BitVec.ofNat 32 (1024 + notOwner))] } }
    Config.treeOwner 7 ≠ s.regs.device ∧ s.hasRoute (Config.treeOwner 7) = true := by
  refine ⟨notOwner_spec.2, hasRoute_via_self _ _ (BitVec.ofNat 32 (1024 + notOwner)) notOwner_spec.1 ?_ ?_ ?_ ?_⟩
  · simp only [cellGet, listGet]
    simp
  all_goals
    unfold notOwner
    split <;> decide

theorem witness_OwnerLosesMembers :
    (((spanning 5 1 (Config.treeOwner 7)).nodes 7).find? fun m => m.slot.role == 5).any (fun n => n.slot.spans && decide (0 < n.slot.count) && n.slot.root &&
      n.slot.gone.isEmpty) = true ∧ (spanning 5 1 (Config.treeOwner 7)).canonical = true ∧ Config.treeOwner 7 = (spanning 5 1 (Config.treeOwner 7)).regs.device := by
  refine ⟨by decide +kernel, by decide +kernel, rfl⟩

theorem witness_LostTreesCompleteTheirPhases :
    (let s := { nodeAt 4 true true 2 1 with notices := [(7, 3)] }
     s.canonical = true ∧ ((s.nodes 7).any fun n => n.slot.role == 5) = false ∧ (s.nodes 7).length = 2 ∧ s.selects .all 0 = true ∧
       (s.notices.find? fun n => n.1 == 7) = some (7, 3)) ∧
    (let s := { nodeAt 5 true true 1 0 with notices := [(7, 3)] }
     (((s.nodes 7).find? fun m => m.slot.role == 5).any fun n => n.slot.count == 0 && decide (0 < n.slot.expect) &&
       n.slot == (s.plot n.phys).slot n.k && decide (n.k < (s.plot n.phys).slots.length)) = true ∧ (s.notices.find? fun n => n.1 == 7) = some (7, 3)) ∧
    (up.notices.find? fun n => n.1 == 7) = none ∧ (up.powered 47 = true ∧ (up.field 47).fenced = false) ∧
    (let s := { nodeAt 4 true true 2 1 with fields := up.fields.modify 0 fun f => { f with fenced := true } }
     s.canonical = true ∧ s.serves .theodolite = true ∧ (s.field 0).fenced = true ∧ ∃ m ∈ s.nodes 7, fieldOfPhys m.phys = 0) ∧
    (let q : Plot := { plotIn .running with slots := Plot.reset.slots.set 15 { Slot.reset with w0 := BitVec.ofNat 64 (7 + 2 ^ 12 + 2 ^ 20 + 2 ^ 21) } }
     let s := { up with fields := up.fields.modify 47 fun f => { f with fenced := true }, plots := [(0, q), (958463, q)] }
     s.selects .all 0 = true ∧ s.selects .all 958463 = false) := by
  refine ⟨?_, ?_, ?_, ?_, ?_, ?_⟩ <;> decide +kernel

/-! ## Witnesses: registers and ports of access -/

/-- The module with page 1,023 on a logical plot, or by physical position. -/
def paged (s : State) (x y : Nat) (phys : Bool) : State :=
  { s with hif := { s.hif with cwin := [(1023, BitVec.ofNat 32 (x + y * 2 ^ 11 + bit phys 21 + 2 ^ 22))] } }

/-- The module with field 47 without power. -/
def darkField : State := { up with fields := up.fields.modify 47 fun f => { f with pwrOk := false } }

theorem witness_RegisterAccessesReachTheirRegisters :
    (physOk 958463 = true ∧ up.powered (fieldOfPhys 958463) = true ∧ up.hostUp = true ∧ 31 < 32 ∧ 0xFFFFFFFF < 2 ^ 32) ∧
    (let s := loaded up parcelOne (plotIn .running)
     physOk 0 = true ∧ s.powered 0 = true ∧ (s.plot 0).refuses (s.view 0) (0x800 + 4 * 31) = true ∧ (paged s 0 0 false).hostUp = true ∧
       (paged s 0 0 false).pageReach 1023 s.invasive .answered = some 0 ∧ (s.plot 0).refuses (s.view 0) (0x878 + 4) = true) ∧
    (let s := loaded up parcelOne (plotIn .loaded)
     (s.plot 0).refuses (s.view 0) (0x800 + 4 * 31) = false ∧ (paged s 0 0 false).pageReach 1023 s.invasive .answered = some 0) ∧
    (darkField.powered (fieldOfPhys 958463) = false ∧ darkField.powered 47 = false ∧ (dark up).emcUp 23 = false ∧ (dark up).portUp 15 = false) ∧
    State.reset.hostUp = false ∧ up.clk.link.up = true ∧
    ((paged (atLevel 1 up) 1247 767 true).pageReach 1023 (decide (1 ≤ (atLevel 1 up).dbg.level)) .answered = some 958463 ∧
      (paged (atLevel 1 up) 1247 767 true).hostUp = true) ∧
    (paged up 1247 767 true).pageReach 1023 (decide (1 ≤ up.dbg.level)) .answered = none ∧
    (paged up 0 0 false).pageReach 1023 up.invasive .silent = none := by
  refine ⟨?_, ?_, ?_, ?_, ?_, ?_, ?_, ?_, ?_⟩ <;> decide +kernel

/-- The offsets of the second statement on RegisterAccessesReachTheirRegisters, first and last of each array. -/
def writableOffsets : List Nat :=
  [0x00C, 0x010, 0x104, 0x200, 0x210, 0x480, 0x884, 0xC00, 0xC40, 0xD80, 0x900, 0x93C, 0xA00, 0xBF8, 0xA04, 0xBFC, 0x500, 0x6E0, 0x504, 0x6E4, 0x508, 0x6E8,
   0x700, 0x7E0]

theorem witness_PlotRegistersTakeTheirWrites :
    (let s := loaded (atLevel 1 up) parcelOne (plotIn .loaded)
     physOk 0 = true ∧ s.powered (fieldOfPhys 0) = true ∧ (writableOffsets.all fun off => !(s.plot 0).refuses (s.view 0) off) = true ∧
       s.invasive = false ∧ (s.plot 0).fence = (0x11 : Nat).testBit 3) ∧
    (let s : State := { up with procs := [] }
     s.serves .theodolite = false ∧ up.serves .theodolite = true ∧ up.clk.link.up = true) := by
  refine ⟨?_, ?_⟩ <;> decide +kernel

theorem witness_WindowsHaltsAndFencesAct :
    (let s := loaded up parcelOne { plotIn .loaded with memAddr := 0x33FC0 }
     physOk 0 = true ∧ s.powered (fieldOfPhys 0) = true ∧ (s.plot 0).memAddr + 56 + 8 ≤ 0x34000 ∧ (s.plot 0).refuses (s.view 0) (0xC80 + 56) = false) ∧
    (let s := loaded up parcelOne (plotIn .running)
     (s.plot 0).memAddr + 60 + 4 ≤ 0x34000 ∧ (s.plot 0).refuses (s.view 0) (0xC80 + 60) = true) ∧
    (physOk 958463 = true ∧ darkField.powered (fieldOfPhys 958463) = false) ∧
    (let s := loaded up parcelOne { plotIn .loaded with accSel := 127 }
     (s.plot 0).refuses (s.view 0) (0xC10 + 4 * 3) = false ∧ (s.plot 0).accSel / 2 < ((s.plot 0).tile ((s.plot 0).accSel % 2)).length) ∧
    up.invasive = false ∧ (atLevel 2 up).invasive = true ∧ ((atLevel 2 up).plot 0).haltReq ≠ true ∧
    (let s := loaded (atLevel 2 up) parcelOne { plotIn .running with haltReq := true, seq := { Seq.reset with halted := true } }
     s.invasive = true ∧ (s.plot 0).seq.halted = true) ∧
    (0x33FC0 + 60 + 4 ≤ 0x34000 ∧ (up.plot 0).fence = false) ∧
    (let s := loaded up parcelOne { Plot.reset with fence := true, st := .fenced }
     (s.plot 0).fence = true ∧ (s.plot 0).test.dead = false ∧ s.isDead 0 = false) ∧
    (let s := { up with nv := { Nv.reset with survey := { Survey.factory with dead := [0] } } }
     s.isDead 0 = true) := by
  refine ⟨?_, ?_, ?_, ?_, ?_, ?_, ?_, ?_, ?_, ?_, ?_⟩ <;> decide +kernel

theorem witness_ModuleRegistersTakeTheirWrites :
    (up.hostUp = true ∧ up.parcels = [] ∧ (gateways 0 []).hostUp = true ∧ (gateways 0 []).parcels = [] ∧ ((gateways 0 []).port 15).st = .active) ∧
    ((loaded up parcelOne (plotIn .loaded)).hostUp = true ∧ (loaded up parcelOne (plotIn .loaded)).parcels ≠ []) ∧
    ((40000 : W32).toNat % 65536 = 40000 ∧ (999 : W32).toNat % 65536 < 1000 ∧ 40000 < (40001 : W32).toNat % 65536) ∧
    (up.emcUp 23 = true ∧ (up.emc 23).retired = false ∧ ((withEmc 23 fun e => { e with retired := true }).emc 23).retired = true ∧
      (withEmc 23 fun e => { e with retired := true }).emcUp 23 = true) ∧
    (up.portUp 15 = true ∧ (up.port 15).st ≠ .active ∧ 15 < up.ports.length ∧ ((gateways 0 []).port 15).st ≠ .off ∧ (gateways 0 []).portUp 15 = true) ∧
    (up.serves .theodolite = true ∧ (gateways 0 []).serves .theodolite = true ∧ (withEmc 23 fun e => { e with retired := true }).serves .theodolite = true ∧
      ({ up with procs := [] } : State).serves .theodolite = false ∧ ((dark up).emcUp 23 = false ∧ (dark up).portUp 15 = false) ∧
      darkField.powered 47 = false ∧ up.powered 47 = true) := by
  refine ⟨?_, ?_, ?_, ?_, ?_, ?_⟩ <;> decide +kernel

theorem witness_SoundingPortAnswersAndActs :
    up.sounds = true ∧ up.main = true ∧ (up.field 47).live = true ∧
    ({ up with dbg := { Dbg.reset with alert := 32 } }.sounds = true ∧ ({ up with dbg := { Dbg.reset with alert := 32 } } : State).dbg.alert ≠ 0) ∧
    (let s := { up with pwr := Pwr.reset }
     s.sounds = true ∧ s.main = false) ∧
    ({ up with pwr := { Pwr.reset with state := .off } } : State).sounds = false ∧ up.dbg.alert = 0 := by
  refine ⟨?_, ?_, ?_, ?_, ?_, ?_, ?_⟩ <;> decide +kernel

/-! ## Witnesses: supplies, service, power -/

/-- Field 0 without power, fenced for its supply. -/
def fencedField (f : Nat) : State := { up with fields := up.fields.modify f fun v => { v with pwrOk := false, fenced := true, supply := true } }

/-- The module with one processor changed. -/
def withProc (q : Proc) (f : Processor → Processor) : State := up.setProc q (f (up.proc q))

/-- A transaction at a step, with what it writes, for a command or not. -/
def waiting (step : Nat) (blocked : Bool) (c : Option Cmd) : State :=
  { up with nv := { Nv.reset with work := [{ txn with step := step, cmd := c, survey := some { Survey.factory with seq := 1 }, fuses := [(3, 1)] }] }
            pwr := { up.pwr with blockMain := blocked } }

/-- What hinders the first transaction of a state. -/
def hinders (s : State) : Bool :=
  s.nv.work.any fun x => s.nvBlocked || (x.step == 3 && x.waitsSquall && s.pwr.state == .squall)

theorem witness_SuppliesRoutesAndRestartsAreServed :
    ((up.field 47).live = true ∧ 47 < up.fields.length ∧ (darkField.field 47).live = false ∧
      (∃ q ∈ (loaded up parcelOne (plotIn .running)).parcels, q.touches 0 = true)) ∧
    (up.serves .theodolite = true ∧ up.fields.length = 48 ∧ (up.field 0).fenced = false) ∧
    ((fencedField (portField 15)).serves .theodolite = true ∧ (fencedField (portField 15)).emcs.length = 24 ∧
      ((fencedField (portField 15)).port 15).second = false ∧ ((fencedField (portField 15)).field (portField 15)).fenced = true) ∧
    ((fencedField (emcField 23)).serves .theodolite = true ∧ 23 < up.emcs.length ∧ ((fencedField (emcField 23)).emc 23).second = false ∧
      ((fencedField (emcField 23)).field (emcField 23)).fenced = true) ∧
    (23 < up.emcs.length ∧ 15 < up.ports.length ∧ (up.port 15).cut = false ∧ (up.port 15).st = .off ∧ ((gateways 0 []).port 15).st ≠ .off) ∧
    (procIndex .isobar < up.procs.length ∧ (up.proc .isobar).up = true ∧ (up.proc .isobar).cut = false ∧ (up.proc .isobar).restarting = false ∧
      (up.proc .isobar).halted = false ∧ up.serves (restarterOf .isobar) = true ∧ (up.proc .isobar).expired = false) ∧
    (let s := withProc .compass fun v => { v with up := false }
     (s.proc .isobar).up = true ∧ (s.proc .isobar).halted = false ∧ s.serves (restarterOf .isobar) = false) ∧
    (let s := withProc .isobar fun v => { v with expired := true }
     (s.proc .isobar).restarting = false ∧ (s.proc .isobar).expired = true ∧ (s.proc .isobar).up = true) ∧
    ((withProc .isobar fun v => { v with restarting := true }).proc .isobar).restarting = true ∧
    (let s := withProc .compass fun v => { v with restarting := true }
     (s.proc .compass).restarting = true ∧ s.nv.romImage.isSome = true ∧
       ({ s with nv := { s.nv with slots := [Image.none, Image.none] } } : State).nv.romImage = none) ∧
    ((waiting 0 true none).serves .compass = true ∧ (waiting 0 true none).nv.work.length = 1 ∧ hinders (waiting 0 true none) = true ∧
      hinders { waiting 3 false none with pwr := { up.pwr with state := .squall } } = true) ∧
    (((List.range 7).all fun k => !hinders (waiting k false none) && ((waiting k false none).nv.work.all fun x => x.step == k)) = true ∧
      ((waiting 6 false (some (cmd 0x14 [1]))).nv.work.all fun x => x.cmd.isSome && x.last && decide (6 ≤ x.step)) = true ∧
      hinders (waiting 6 false (some (cmd 0x14 [1]))) = false ∧ (waiting 0 false none).nv.due = none ∧ (waiting 0 false none).nv.journals.length = 2) ∧
    (let n := (Nv.reset.stepTxn { txn with step := 2 }).1
     (n.entries.find? fun e => e.txn == txn.num).isSome = true ∧ n.journals.length = 2) ∧
    (Nv.reset.checksTxn { txn with survey := some { Survey.factory with seq := 1 } } = false ∧
      ((Nv.reset.stepTxn { txn with step := 0 }).1.checksTxn { txn with step := 1, copyDev := 1 }) = true) := by
  refine ⟨?_, ?_, ?_, ?_, ?_, ?_, ?_, ?_, ?_, ?_, ?_, ?_, ?_, ?_⟩ <;> decide +kernel

/-- The module with readings of its power. -/
def drawing (avg now : Nat) : State := { up with pwr := { up.pwr with avgW := avg, mainW := now } }

/-- The module with field 47 changed. -/
def withField (f : Field → Field) : State := { up with fields := up.fields.modify 47 f }

theorem witness_PowerMeasurementsSetTheirRegisters :
    (up.serves .isobar = true ∧ up.main = true) ∧ (47 < up.fields.length ∧ (up.field 47).live = true) ∧
    (let s := loaded up parcelOne (plotIn .running)
     (s.field 0).live = true ∧ (s.plots.filter fun pp => fieldOfPhys pp.1 == 0 && (pp.2.st == .running || pp.2.st == .draining)) ≠ []) ∧
    (65535 < 65536) ∧ (let s := drawing 44500 43500
     s.main = true ∧ 44500 ≤ s.pwr.avgW ∧ 43500 ≤ s.pwr.mainW) ∧ (255 < 256 ∧ 4095 < 4096) ∧
    ((withField fun v => { v with lockout := 1 }).field 47).lockout ≠ 0 ∧ ((withField fun v => { v with lockout := 1 }).field 47).live = true ∧
    (let s := withField fun v => { v with stretchAt := List.replicate 4095 0 }
     (s.field 47).lockout = 0 ∧ (s.clk.count :: (s.field 47).stretchAt.filter fun t => decide (s.clk.count < t + 10000)).length ≤ 4096) ∧
    (let s := withField fun v => { v with stretchAt := List.replicate 4096 0, point := 6 }
     (s.field 47).lockout = 0 ∧ (s.field 47).live = true ∧ (s.field 47).point < 7 ∧
       4096 < (s.clk.count :: (s.field 47).stretchAt.filter fun t => decide (s.clk.count < t + 10000)).length) ∧
    (let l := ((([[90, 95, 95], []] : List (List Nat))[0]?).getD []).take 16
     l[1]? = some 95 ∧ (∀ j < 16, ∀ u ∈ l[j]?, u < 95 ∨ (u = 95 ∧ 1 ≤ j)) ∧ l.length = 3 ∧ ((([[90, 95, 95], []] : List (List Nat))[1]?).getD []).take 16 = []) := by
  refine ⟨?_, ?_, ?_, ?_, ?_, ?_, ?_, ?_, ?_, ?_, ?_⟩ <;> decide +kernel

theorem witness_PowerStatesChange :
    (up.main = true ∧ ((withEmc 23 fun e => { e with crit := true }).emc 23).crit = true ∧ (withEmc 23 fun e => { e with crit := true }).main = true ∧
      (up.emc 23).crit = false ∧ up.pwr.flow < 300 ∧ 45500 ≤ (drawing 45500 0).pwr.avgW ∧ (drawing 45499 0).pwr.avgW < 45500) ∧
    (let s := { up with pwr := { up.pwr with state := .squall } }
     s.pwr.state = .squall ∧ s.squallHolds = false) ∧
    (let s := { up with pwr := { up.pwr with state := .squall, causes := 32 } }
     s.pwr.state = .squall ∧ s.squallHolds = true) ∧
    ({ up with pwr := { up.pwr with flow := 149 } } : State).pwr.flow < 150 ∧ 150 ≤ ({ up with pwr := { up.pwr with flow := 150 } } : State).pwr.flow ∧
    (up.clk.ready = true ∧ up.pwr.state = .active ∧ up.quiet = true) ∧
    ({ up with pwr := { up.pwr with state := .idle } } : State).pwr.state = .idle ∧
    (up.pwr.state = .active ∧ up.pwr.waking = false ∧ ({ up with pwr := { up.pwr with waking := true } } : State).pwr.waking = true) ∧
    (State.reset.pwr.state = .standby ∧ ({ up with pwr := { up.pwr with state := .off } } : State).pwr.state = .off ∧ State.reset.main = false ∧
      up.pwr.state ≠ .off) ∧
    ((up.field 47).live = true ∧ (up.field 47).fixed = false ∧ up.pwr.netFixed = false ∧ ({ up with pwr := { up.pwr with netFixed := true, netFix := 3 } } : State).quiet = true) := by
  refine ⟨?_, ?_, ?_, ?_, ?_, ?_, ?_, ?_, ?_, ?_⟩ <;> decide +kernel

/-! ## Witnesses: resets, stages, clocks -/

/-- The module during the release: a step, a running stage. -/
def releasing (step stage : Nat) : State :=
  { up with clk := { up.clk with step := step, stage := stage, ready := false, stages := Clk.reset.stages.set stage { Stage.reset with result := 1 } } }

/-- The start-up at a stage, from a Cold or Warm reset. -/
def atStage (n level : Nat) : State :=
  { up with clk := { up.clk with stage := n, level := level, ready := false, stages := Clk.reset.stages.set n { Stage.reset with result := 1 } } }

theorem witness_ResetsAndReleaseFollowTheirOrder :
    up.pwr.state ≠ .off ∧ (0 < 1 ∧ 979 < 980) ∧ (10200 < 10201 ∧ 97999 < 98000) ∧ (1020 < 1021 ∧ 9799 < 9800) ∧ 102 < 103 ∧
    (let s := { up with nv := { Nv.reset with fuses := [(3, 1)] } }
     (s.nv.fuse 3).getLsbD 0 = true ∧ ¬ s.clk.step < 16) ∧
    (State.reset.pwr.state ≠ .off ∧ State.reset.pwr.stopped = false ∧ State.reset.clk.stages.length = 9 ∧ State.reset.clk.step = 0) ∧
    ((releasing 1 2).stageRuns 2 = true ∧ (releasing 1 2).clk.selected = true ∧ (releasing 1 2).clk.mainValid = true ∧
      (releasing 1 2).clk.stages.length = 9 ∧ (releasing 1 2).pwr.stopped = false ∧ (releasing 2 2).clk.step = 2) ∧
    (let s := { releasing 14 2 with clk := { (releasing 14 2).clk with mainValid := false } }
     s.stageRuns 2 = true ∧ s.clk.selected = true ∧ s.clk.mainValid = false ∧ s.clk.step ≠ 0 ∧ s.clk.stages.length = 9) ∧
    ((releasing 14 2).stageRuns 2 = true ∧ 3 ≤ (releasing 14 2).clk.step ∧ (releasing 14 2).clk.step < 15 ∧ (46 / 4 = (releasing 14 2).clk.step - 3) ∧
      ((releasing 14 2).field 46).supply = false) ∧
    ((releasing 15 2).stageRuns 2 = true ∧ (releasing 15 2).pwr.causes = 0 ∧ ((releasing 15 2).port 15).st = .off ∧ ((releasing 15 2).port 15).disable = false ∧
      ((releasing 15 2).port 15).cut = false ∧ (releasing 15 2).roleOf 15 ≠ 7) ∧
    (47 < darkField.fields.length ∧ (darkField.field 47).pwrEn = true ∧ (darkField.field 47).rstN = true ∧ (darkField.field 47).pwrOk = false) := by
  refine ⟨?_, ?_, ?_, ?_, ?_, ?_, ?_, ?_, ?_, ?_, ?_, ?_⟩ <;> decide +kernel

/-- A journal with one entry of a survey change, committed or not, done or not. -/
def journalled (commit done : Bool) : Nv :=
  let e : JEntry := { ({ txn with survey := some { Survey.factory with seq := 1 }, fuses := [(3, 1)] } : Txn).entry Nv.reset with commit := commit, done := done }
  { Nv.reset with journals := [[e], [e]] }

theorem witness_EarlyStagesChooseOrStop :
    ((atStage 0 0).stageRuns 0 = true ∧ (atStage 0 0).clk.stages.length = 9) ∧ (atStage 1 0).stageRuns 1 = true ∧
    ((journalled true true).entries.length = 1 ∧ ((journalled true true).entries.all fun e => e.commit && e.done) = true) ∧
    ((journalled true false).entries.length = 1 ∧ ((journalled true false).entries.all fun e => e.commit && !e.done) = true) ∧
    ((journalled false false).entries.length = 1 ∧ ((journalled false false).entries.all fun e => !e.commit) = true) ∧
    (Nv.reset.copies = [Survey.factory, Survey.factory] ∧ Survey.factory.good = true ∧ Survey.factory.mine = true) ∧
    (let s := { atStage 2 0 with clk := { (atStage 2 0).clk with selected := false, step := 1 } }
     s.stageRuns 2 = true ∧ s.clk.selected = false ∧ s.clk.step = 1 ∧ s.clk.stages.length = 9 ∧ s.parcels = []) ∧
    (let s := { atStage 1 0 with nv := journalled true false }
     (s.discardTxns).1.nv.flash ≠ s.nv.flash ∧ s.nvBlocked = false ∧ ({ s with pwr := { s.pwr with blockMain := true } } : State).nvBlocked = true ∧
       s.nv.journals.length = 2 ∧ s.stageRuns 1 = true ∧ s.clk.stages.length = 9) ∧
    ((atStage 1 0).discardTxns).1.nv.flash = (atStage 1 0).nv.flash := by
  refine ⟨?_, ?_, ?_, ?_, ?_, ?_, ?_, ?_, ?_⟩ <;> decide +kernel

/-- A join with three failing wires in one set. -/
def badJoin (j : Nat) : JoinResult := { join := j, failing := [3] }

theorem witness_LateStagesTestBuildAndTrain :
    ((atStage 3 0).stageRuns 3 = true ∧ (atStage 3 0).clk.stages.length = 9 ∧ (atStage 3 0).fields.length = 48 ∧
      ((badJoin 47).failing.any fun n => decide (2 < n)) = true ∧ (badJoin 47).join < 48 ∧ 48 ≤ (badJoin 129).join ∧ (badJoin 129).join < 130 ∧
      (badJoin 89).join < 90) ∧
    ((atStage 3 1).stageRuns 3 = true ∧ (atStage 3 1).clk.level ≠ 0) ∧
    ((atStage 4 0).stageRuns 4 = true ∧ (atStage 4 0).clk.level = 0 ∧ (atStage 4 0).serves .theodolite = true ∧ physOk 958463 = true ∧
      (atStage 4 0).testable 958463 = true) ∧
    ((atStage 5 0).stageRuns 5 = true ∧ (atStage 5 0).serves .theodolite = true) ∧ ((atStage 6 0).stageRuns 6 = true ∧ (atStage 6 1).stageRuns 6 = true) ∧
    (atStage 7 0).stageRuns 7 = true ∧ (atStage 8 0).stageRuns 8 = true := by
  refine ⟨?_, ?_, ?_, ?_, ?_, ?_, ?_⟩ <;> decide +kernel

theorem witness_ReferencesFailOverAndStitchModeMarks :
    State.reset.clk.stage = 0 ∧ up.clk.stage ≠ 0 ∧ ((-500 : Int) ≤ 500 ∧ (500 : Int) < 501) ∧ (up.clk.source = 0 ∧ up.clk.aGood = true ∧ up.clk.bGood = true) ∧
    (47 < up.fields.length ∧ up.serves .theodolite = true ∧ ∃ q ∈ (loaded up parcelOne (plotIn .running)).parcels, q.touches 0 = true) := by
  refine ⟨?_, ?_, ?_, ?_, ?_⟩ <;> decide +kernel

/-! ## Witnesses: Wenga links -/

/-- The module with port 15 in a state. -/
def portIn (st : LinkState) (f : Port → Port) : State :=
  { up with ports := up.ports.modify 15 fun p => f { p with st := st }, regs := { Regs.reset with written := true } }

def aMap (ok : W16) (rtt : Nat) : LaneMap := { passing := ok, reversed := false, polarity := 0, rttNs := rtt }

theorem witness_PortsTrainAndGoDown :
    (((portIn .detect id).port 15).st = .detect ∧ groupOfFour 0xF000 = true ∧ groupOfFour 0x7FFE = true ∧ groupOfFour 0x7777 = false ∧ 15 < (portIn .detect id).ports.length) ∧
    ((portIn .equalise id).port 15).st = .equalise ∧
    (((portIn .laneMap id).port 15).st = .laneMap ∧ (laneWidth 0xF000 3).1 = 1 ∧ ((portIn .laneMap id).port 15).minWidth ≤ 1 ∧ (aMap 0xF000 150).rttNs ≤ 150) ∧
    (((portIn .identify id).port 15).st = .identify ∧ (portIn .identify id).regs.written = true ∧ (portIn .identify id).roleOf 15 = 0 ∧
      (portIn .identify id).roleOf 0 ≠ 0 ∧ ((portIn .conflict id).port 15).st = .conflict ∧ LinkState.identify.trained = true) ∧
    (((portIn .active id).port 15).st = .active ∧ ((portIn .active fun p => { p with fecLanes := [2 ^ 16 + 1] }).port 15).fecHigh = true ∧
      ((portIn .active fun p => { p with fecLanes := [2 ^ 16] }).port 15).fecHigh = false ∧
      ((portIn .active fun p => { p with winReplays := 65 }).port 15).replayHigh = true ∧
      ((portIn .active fun p => { p with winReplays := 64 }).port 15).replayHigh = false) ∧
    (((portIn .retrain fun p => { p with width := 1 }).port 15).st = .retrain ∧ (laneWidth 0x0F00 1).1 ≠ 0 ∧ (laneWidth 0 3).1 = 0) ∧
    (((portIn .down id).port 15).st = .down ∧ ((portIn .down id).port 15).cut = false ∧ LinkState.down.trained = false ∧
      ((portIn .down fun p => { p with cut := true }).port 15).cut = true) := by
  refine ⟨?_, ?_, ?_, ?_, ?_, ?_, ?_⟩ <;> decide +kernel

/-- A flit of zeros but for its header, with its CRC and parity. -/
def aFlit (kind seq : Nat) (ack : Option Nat) (nak : Bool) : List Byte := flitBytes kind seq ack nak [cleanData (zeros 32)]

/-- A flit kept for replay. -/
def keptFlit : SentFlit := { bytes := flitBytes 1 0 none false [cleanData (zeros 32)], sources := [], cont := false }

/-- Whether a received flit is corrected to one whose CRC is right, with its header. -/
def flitReads (fl : List Byte) (q : Nat → Bool) : Bool :=
  fl.length == 256 && (let b := (fecCorrect fl).1
    leNat ((b.drop 0xE8).take 8) == crc64 (b.take 0xE8) && q (leNat (b.take 8)))

/-- A link packet of a kind from device 1 to a device. -/
def linkPkt (kind dev stream : Nat) (d : Data) : LinkPkt :=
  { kind := kind, flags := 0, stream := stream, amount := 3, dest := BitVec.ofNat 64 (dev * 2 ^ 39), source := BitVec.ofNat 64 (2 ^ 39), signal := 0
    way := none, data := d }

/-- Port 15 ACTIVE, with a packet received. -/
def received (k : LinkPkt) : State := portIn .active fun p => { p with recv := [k] }

def taking (s : State) (q : LinkPkt → Bool) (t : LinkPkt → State → Bool) : Bool :=
  match s.takeRecv 15 q with
  | some (k, u) => t k u
  | none => false

set_option maxRecDepth 100000 in
theorem witness_FlitsAreTakenReplayedAndCredited :
    ((portIn .active id).port 15).st = .active ∧
    flitReads (aFlit 0 0 (some 4095) false) (fun hd => hd % 4 != 1 && !hd.testBit 27 && hd.testBit 26) = true ∧
    flitReads (aFlit 1 0 none false) (fun hd => hd % 4 == 1 && bitsOf hd 13 2 == 0 && !hd.testBit 27) = true ∧
    flitReads (aFlit 1 4095 none false) (fun hd => hd % 4 == 1 && bitsOf hd 13 2 != 0) = true ∧
    flitReads (zeros 255 ++ [1]) (fun _ => true) = false ∧
    (((portIn .detect id).port 15).st ≠ .active ∧ 15 < (portIn .detect id).ports.length) ∧
    ((((portIn .active id).port 15).acked 0).replay = [] ∧
      (let v := ((portIn .active fun p => { p with replay := [keptFlit], sendSeq := 5, replays := 7 }).port 15).acked 0
       v.replay ≠ [] ∧ 7 ≤ v.replays) ∧
      (let v := ((portIn .active fun p => { p with replay := [keptFlit], sendSeq := 5, replays := 6 }).port 15).acked 0
       v.replay ≠ [] ∧ v.replays < 7 ∧ v.waiting = [] ∧ v.streamOwed = [] ∧ ∀ n ∈ v.owe, n = 0)) ∧
    (taking (received (linkPkt 9 0 0 (cleanData (zeros 16)))) (fun x => x.kind == 9) fun k _ => k.kind == 9) = true ∧
    15 < ((portIn .active id).port 15).lanes.length := by
  refine ⟨?_, ?_, ?_, ?_, ?_, ?_, ?_, ?_, ?_⟩ <;> decide +kernel

/-- The module as device 0 of a torus of 8 by 8 by 16 whose port 3, of role 5, is ACTIVE or not; packet k received at port 15. -/
def switching (k : LinkPkt) (act : Bool) : State :=
  { received k with ports := (received k).ports.modify 3 fun p => if act then { p with st := .active } else p }

def egresses (k : LinkPkt) (act : Bool) (q : State → Egress → Bool) : Bool :=
  let s := switching k act
  taking s (fun x => switched x && !s.switchHolds x) fun k u => q u (u.egress k)

/-- A message on Stratus for device 64, and the module's one ACTIVE port towards it. -/
def sending : State :=
  { up with stratus := [⟨⟨.plot 0 0, .away 64, 1, .msg { msgOf false 0 32 with dev := 64 }⟩, [(0, 3, 0)]⟩], regs := { Regs.reset with written := true }
            ports := up.ports.modify 3 fun p => { p with st := .active } }

theorem witness_SwitchRoutesPackets :
    (egresses (linkPkt 11 0 0 []) false fun _ _ => true) = true ∧
    (egresses (linkPkt 0 0 0 (cleanData (zeros 32))) false fun _ e => match e with | .here _ => true | _ => false) = true ∧
    (let k := linkPkt 10 1023 0 []
     let s := { switching k false with regs := { Regs.reset with modroute := [(1023, BitVec.ofNat 32 (2 ^ 11))] } }
     taking s (fun x => switched x && !s.switchHolds x) fun k u => decide (k.kind ≤ 10) && u.egress k == .discard) = true ∧
    (egresses (linkPkt 0 64 0 (cleanData (zeros 32))) true fun u e => match e with
      | .out role t k => !u.roleHeld role t k && (portChoice (u.activePorts role) (evenChoice k t)).isSome
      | _ => false) = true ∧
    (egresses (linkPkt 0 64 0 (cleanData (zeros 32))) false fun u e => match e with
      | .out role t k => !u.roleHeld role t k && (portChoice (u.activePorts role) (evenChoice k t)).isNone
      | _ => false) = true ∧
    (match sending.takePacket 0 with
     | some (e, u) => e.pkt.dst == .away 64 && (match linkOf sending.regs.device { e.pkt with body := e.pkt.body.mar NetErr.none.poison } with
       | some (k, x, y) => !sending.switchHolds k && (u.fenceHit e.way).isNone && (fencedSide.fenceHit e.way).isSome &&
           (let v := u.linkErrors (u.placeField (.port (u.nearestPort x y))) NetErr.none
            match v.egress k with
            | .out role t k => !v.roleHeld role t k && (portChoice (v.activePorts role) (evenChoice k t)).isSome
            | _ => false)
       | none => false)
     | none => false) = true ∧
    (up.regs.device ≠ 64 ∧ up.regs.towards 64 = some 5 ∧ cellGet 0 up.regs.modroute 64 = 0) ∧
    (up.swHeld = [] ∧ ∀ p, p < 16 → (up.port p).waiting = []) := by
  refine ⟨?_, ?_, ?_, ?_, ?_, ?_, ?_, ?_⟩ <;> decide +kernel

/-- A parcel with an inbound and an outbound stream at port 15, and an image segment of 64 bytes, part of it there. -/
def streaming (got : Nat) (dig : List Byte) : Parcel :=
  { parcelOne with inStreams := [⟨15, 1023, 0, 0, 15⟩], outStreams := [⟨15, 1023, 0, 0, 15⟩], imagesDone := false
                   segs := [{ rect := ⟨0, 0, 0, 0⟩, off := 0, len := 64, port := 15, stream := 7, digest := dig, got := zeros got, passed := false }] }

def streamed (k : LinkPkt) (got : Nat) (dig : List Byte) : State :=
  { received k with parcels := [streaming got dig], plots := [(0, { plotIn .loaded with gate := false })] }

theorem witness_StreamsDeliverAndImagesJoin :
    (taking (streamed (linkPkt 6 0 0 (cleanData (zeros 32))) 0 []) (fun x => x.kind == 6) fun k u =>
      ((u.parcels.flatMap (·.inStreams)).find? fun e => e.port == 15 && e.stream == k.stream).isNone) = true ∧
    (taking (streamed (linkPkt 6 0 1023 (cleanData (zeros 32))) 0 []) (fun x => x.kind == 6) fun k u =>
      ((u.parcels.flatMap (·.inStreams)).find? fun e => e.port == 15 && e.stream == k.stream).any fun e => !u.streamTooLong e k.data.length) = true ∧
    (taking (streamed (linkPkt 7 0 1023 []) 0 []) (fun x => x.kind == 7) fun k u =>
      ((u.parcels.flatMap (·.outStreams)).find? fun e => e.port == 15 && e.stream == k.stream).isSome) = true ∧
    (taking (streamed (linkPkt 8 0 0 (cleanData (zeros 32))) 0 []) (fun x => x.kind == 8) fun k u =>
      ((u.portSegs 15).find? fun e => e.2.2.2.stream == k.stream).isNone) = true ∧
    (taking (streamed (linkPkt 8 0 7 (cleanData (zeros 32))) 0 []) (fun x => x.kind == 8) fun k u => (u.port 15).imageHeld.isEmpty && u.imageReady 15 k &&
      ((u.portSegs 15).find? fun e => e.2.2.2.stream == k.stream).any fun e => e.1 == 1 && !e.2.1 && e.2.2.1 == 0 &&
        decide (e.2.2.2.got.length + k.data.length < e.2.2.2.total)) = true ∧
    (taking (streamed (linkPkt 8 0 7 (cleanData (zeros 32))) 32 (sha512 (zeros 64))) (fun x => x.kind == 8) fun k u => (u.port 15).imageHeld.isEmpty && u.imageReady 15 k &&
      ((u.portSegs 15).find? fun e => e.2.2.2.stream == k.stream).any fun e => e.1 == 1 && !e.2.1 && e.2.2.1 == 0 &&
        decide (e.2.2.2.got.length + k.data.length = e.2.2.2.total ∧ sha512 (e.2.2.2.got ++ k.data.map (·.1)) = e.2.2.2.digest)) = true := by
  refine ⟨?_, ?_, ?_, ?_, ?_, ?_⟩ <;> decide +kernel

/-! ## Which commands are well-formed -/

/-- For each check of WellFormed.lean a term that it refuses. -/
def illFormed : List Instr :=
  [.registerWrite (.bar0 67108864) (zeros 4), .registerWrite (.config 4096) (zeros 4), .registerWrite (.plot 958464 0) (zeros 4),
   .registerWrite (.plot 0 0) (zeros 2), .registerWrite (.plot 0 2) (zeros 4), .registerWrite (.field 48 0) (zeros 4),
   .registerWrite (.emc 24 0) (zeros 4), .registerWrite (.port 16 0) (zeros 4), .registerWrite (.switch 4096) (zeros 4),
   .registerWrite (.bar0 0) [], .registerWrite (.bar0 0) (zeros 257), .registerWrite (.bar0 0xFFFFF) (zeros 2),
   .pagedRead 1024 0 4 .answered, .pagedRead 0 2 4 .answered, .pagedRead 0 4 8 .answered, .pagedRead 0 4092 8 .answered,
   .pagedWrite 1024 0 (zeros 4) .answered, .pagedWrite 0 0 [] .answered, .cwinSelWrite 1024 0, .memWindowRead 958464 0 4,
   .memWindowRead 0 0 2, .memWindowRead 0 62 4, .memWindowWrite 958464 0 4 0, .memWindowWrite 0 64 4 0, .accDataWrite 958464 0 4 0,
   .accDataWrite 0 12 8 0, .haltReq 958464 true, .step 958464, .fenceSet 958464, .fenceClear 958464, .wgRetrainWrite 16,
   .wgDisableWrite 16 true, .emcRetireWrite 24, .wgLostSrcRead 16, .fieldFirstRead 48, .tensorMac ⟨1200, 0⟩, .move ⟨0, 768⟩,
   .steeringSwitch ⟨0, 0⟩ 2, .steeringMerge ⟨0, 0⟩ 2, .ringMessageLand ⟨0, 0⟩ 8, .chartroomPlotWrite ⟨1200, 0⟩ 0 ⟨[], .none⟩ none,
   .edgeServiceComplete 24, .ticketGiveBack ⟨0, 0⟩ 24, .stackTemperatureRead 24 0, .calibrationWindow 24, .padScrub 958464 0 [],
   .padScrub 0 0 [⟨1, 0, 0⟩], .edgeScrub 24 0 [], .edgeScrub 0 0 [⟨1, 0, 0⟩], .parcelDeadlock 0, .endReport 256, .lossNoticeArrival 4096,
   .ownerRouteTimeout 4096, .treeLossBroadcast 48, .rerun ⟨958464, ⟨0, 0, 0⟩⟩, .rerunVerdict 958464 ⟨true, 0⟩, .patrolTest ⟨958464, none⟩,
   .patrolTest ⟨0, some ⟨958464, false, 0, 0, 0⟩⟩, .queuedTestRun ⟨958464, none⟩, .queuedTestRun ⟨0, some ⟨958464, false, 0, 0, 0⟩⟩,
   .test (some [⟨958464, false, 0, 0, 0⟩]), .triangulation [⟨958464, false, 0, 0, 0⟩], .fieldSupplyFault 48, .attachmentSwitch (.emc 24),
   .attachmentSwitch (.port 16), .hintReport 48, .squall (.junction 48), .squall (.stack 24), .droopStretch 48, .domainSupplyTimeout 48,
   .stitchWireTest [⟨130, []⟩], .edgeMemoryTraining [⟨24, true, 0⟩], .signalDetect 16 0, .wengaPacketArrival (.port 16), .imageData 16,
   .stitchModeEntry 48, .segmentSupplyFault (.clock 48), .segmentSupplyFault (.memory 24), .segmentSupplyFault (.link 16)]

theorem test_ill_formed_refused : (illFormed.all fun c => !c.wf) = true := by decide +kernel

/-- At the last value of each range a command is well-formed. -/
theorem test_edges_well_formed :
    ([.registerWrite (.bar0 0xFFFFF) [0], .registerWrite (.plot 958463 4088) (zeros 8), .pagedRead 1023 4088 8 .answered, .accDataWrite 958463 12 4 0,
      .tensorMac ⟨1199, 767⟩, .steeringMerge ⟨0, 0⟩ 1, .ringMessageLand ⟨0, 0⟩ 7, .edgeScrub 23 0 [⟨8, 0, 0⟩], .endReport 255, .endReport 1,
      .ownerRouteTimeout 4095, .hintReport 47, .stitchWireTest [⟨129, []⟩], .imageData 15] : List Instr).all Instr.wf = true := by decide +kernel

/-- The command table gives no row bits: no word spells a command. -/
theorem test_no_word_spells_a_command : decodeTableWord 32 1 = none ∧ up.withFetchWord 32 1 = up := ⟨rfl, rfl⟩

/-! ## Values of the spec's worked examples -/

/-- 01, one repaired reach: (241, 200) dead, q = 7 in reach 3 of field column 1, which 12 numbers 9,609. -/
theorem test_repaired_reach :
    reachOfPhys (1248 * 200 + 241) = 9609 ∧ [231, 232, 249].map (physOf [(9609, 7)] · 200) = [240, 242, 259].map (1248 * 200 + ·) ∧
    physOf [(9609, 7)] 232 201 = 1248 * 201 + 241 ∧ logicalOf [(9609, 7)] (1248 * 200 + 241) = none := by decide +kernel

/-- 01, one address. -/
theorem test_one_address : deviceId 5 2 11 = 725 ∧ globalAddr 725 232 200 0xC040 = 0x00016A8E8320C040 := by decide +kernel

/-- 02, one FP8 tile per firing: the two operation words. -/
theorem test_operation_words :
    opw 1 1 3 0x20 0x21 0xC2 256 0 (3 * 2 ^ 26) = 0x0C00000000000000010000C221200C11 ∧ opw 7 0 0 0xC2 0 0xE3 0 0 0 = 0x000000E300C20007 := by decide +kernel

/-- 03, a scaled FP8 stream: the product for row 5, column 2 at k-step 100 is -1.875. -/
theorem test_scaled_product :
    (Fmt.convert .fp32 false false true ((((Fmt.decode .e4m3 0x2A).mul (Fmt.decode .e4m3 0xC4)).scale (-2)).scale 3)).bits = 0xBFF00000 := by decide +kernel

/-- 05, a three-sheet fold: the fold word of sheet 2. -/
theorem test_fold_word :
    (let h := Header.parse (0x00003F8000300018 * 2 ^ 128)
     (h.next, h.foldEn, h.visit, h.exitAfter, h.exit, h.closeQ)) = (0, true, 1, 3, 8, 0x3F) := by decide +kernel

/-- 06, skips in a 4 KiB ring: channel 1 as loaded, and with the credit and tail of steps 4 to 6. -/
theorem test_ring_sends :
    (let c : Channel := { Channel.reset with dest := 0x81016A8A523C0001, rsz := 5 }
     (c.kind, c.index, c.dev, c.tx, c.ty, c.credit, c.enable) = (1, 0, 725, 165, 143, 128, true) ∧ ((c.spend 1024).credit, (c.spend 1024).rtail) = (95, 33) ∧
     (let c := (c.setCredit 29).setRtail 99
      c.ready 1024 = false ∧ (c.need 1024).1 = 62) ∧
     (let c := ((c.setCredit 62).setRtail 99).spend 1024
      (c.credit, c.rtail) = (0, 33))) := by decide +kernel

/-- 06, the same ring at its reader, step 6: the piece comes, the skip at 99 is taken, the tail moves to 33. -/
theorem test_ring_arrival :
    (let g : Ring := { Ring.reset with base := 0x5000, rsz := 5, enable := true, head := 33, tail := 99, used := 66, msgs := 2, left := 1024 }
     let s : State := { loaded up parcelOne (reader Queue.reset g) with stratus := [⟨⟨.plot 1 0, .plot 0 0, 1, .msg (msgOf true 7 1024)⟩, []⟩] }
     match exec (.ringMessageStart ⟨0, .none⟩) s with
     | .next t => (((t.plot 0).ring 7).used, ((t.plot 0).ring 7).tail, ((t.plot 0).ring 7).head) == (128, 33, 33)
     | _ => false) = true := by decide +kernel

/-- 07, a parcel commit: the words of a leaf, a segment node and the root. -/
theorem test_tree_words :
    (let f := fun (n : Nat) => let v : Slot := { Slot.reset with w0 := BitVec.ofNat 64 n }; (v.tree, v.role, v.root, v.use, v.active, v.expect)
     [0x2D1011, 0x142D2011, 0xC02DB011].map f) = [(17, 1, false, 3, true, 0), (17, 2, false, 3, true, 20), (17, 3, true, 3, true, 192)] := by decide +kernel

/-- 08, one transfer and its share. -/
theorem test_one_transfer :
    hopsOf ⟨165, 142⟩ ⟨1100, 700⟩ = (21, 92) ∧ stratusUnloaded ⟨165, 142⟩ ⟨1100, 700⟩ 1024 = 371 ∧ stratusBound ⟨165, 142⟩ ⟨1100, 700⟩ 1024 (vcWait 1) = 1462 := by
  decide +kernel

/-- 09, placing two granules. -/
theorem test_two_granules : edgePlace 0x1234567890 = (6, 0xC22E4890) ∧ edgePlace 0x1234568890 = (8, 0xC22E4890) := by decide +kernel

/-- 14, the whole array on a warm day: 75 slots of each hundred at point 0, 21 with the inlet at 40 °C. -/
theorem test_warm_day :
    (let s : State := { up with fields := up.fields.map fun v => { v with watts := 787, hintValid := true, floor := 3, point := 0 } }
     s.fasterSlots 4000 false 1 = 75 ∧ allowance 40 600 = 36000 ∧ ({ s with pwr := { s.pwr with inForce := 36000 } } : State).fasterSlots 4000 false 1 = 21) := by
  decide +kernel

/-- 12 R428 and 13 R460: the magic numbers are the ASCII characters AQSURVY1 and AQJRNL01. -/
theorem test_magic_characters :
    (Survey.factory.bytes (zeros 64) (zeros 64)).take 8 = ("AQSURVY1".toList.map fun c => BitVec.ofNat 8 c.toNat) ∧
    ((txn.entry Nv.reset).bytes.take 8 = "AQJRNL01".toList.map fun c => BitVec.ofNat 8 c.toNat) := by decide +kernel

/-- 11 R380: 0xB4 is the bit pairs 00, 01, 11, 10 from the low end, levels 0 to 3; at width 8 byte 5 of a flit is the second byte of lane 2. -/
theorem test_lane_levels :
    pam4 0xB4 = [0, 1, 2, 3] ∧ ((laneLevels 2 ((List.replicate 5 0) ++ [(0xB4 : Byte)] ++ zeros 250) 2).take 8).drop 4 = [0, 1, 2, 3] := by decide +kernel

/-- The standard's check values: CRC-32C and SHA-512. -/
theorem test_digests :
    crc32c ([0x31, 0x32, 0x33, 0x34, 0x35, 0x36, 0x37, 0x38, 0x39]) = 0xE3069283 ∧
    (sha512 [0x61, 0x62, 0x63]).take 8 = [0xDD, 0xAF, 0x35, 0xA1, 0x93, 0x61, 0x7A, 0xBA] := by decide +kernel

end Sys2Proof.Tests
end

section
/-! PROOFS. Beacon operations (07 R245, R246). First what any operation in turn does to its plot, as a rule for every row of the sheet
operations; then what a beacon operation does when it starts, which beacon words are illegal, and when a wait is over. -/

namespace Sys2Proof.Machine

/-! ## Fields of PARAM -/

theorem bitsOf_lt (n hi lo : Nat) : bitsOf n hi lo < 2 ^ (hi + 1 - lo) := Nat.mod_lt _ (Nat.two_pow_pos _)

theorem opParam_lt (w : W128) : opParam w < 2 ^ 32 := bitsOf_lt _ 127 96

/-- A VALUE has 16 bits. -/
theorem beaconValue_lt (n : Nat) : bitsOf n 20 5 < 65536 := bitsOf_lt n 20 5

/-- Nothing of a set's VALUE is cut off. -/
theorem Plot.beaconSet_param (p : Plot) (b n : Nat) :
    p.beaconSet b (bitsOf n 20 5) = { p with beacons := p.beacons.set b (bitsOf n 20 5) } := by
  rw [Plot.beaconSet, Nat.mod_eq_of_lt (beaconValue_lt n)]

/-! ## An event at a plot that works -/

theorem State.onPlot_of_runAt {s : State} {q : XY} {r : Run} (h : s.runAt q.x q.y = some r) (f : Run → Run) :
    s.onPlot q f = s.putRun r.p (f r) := by
  rw [State.onPlot, h]

theorem turns_of_at {s : State} {p : XY} {r : Run} {c : Instr} {f : Run → Run} (hc : exec c s = s.at p f)
    (h : s.runAt p.x p.y = some r) : Turns c s r (f r) := by
  rw [Turns, hc, State.at, State.onPlot_of_runAt h]

section
variable {s : State} {p : XY} {r : Run} {f : Firing} {h : Header} {w : W128}

/-! ## The operation in turn issues -/

/-- The word in turn issues in three parts: the sequencer moves on, the operation starts, and what is not complete stays in flight. -/
theorem Run.issue_of_issuable {cls op : Nat} {edge : Option Bool} (hi : r.p.issuable = some (f, h, w)) (hm : rowMatches cls op edge w = true) :
    r.issue cls op edge =
      ((r.begun f h w).startOp (r.flightOf f h w)).1.addFlight ((r.begun f h w).startOp (r.flightOf f h w)).2 := by
  simp only [Run.issue, hi, hm, if_true]
  rfl

theorem InTurn.turns {r' : Run} {c : Instr} {cls op : Nat} {edge : Option Bool} {g : Flight} (ht : InTurn s p r f h w)
    (hc : exec c s = s.issueAt p cls op edge) (hm : rowMatches cls op edge w = true) (hs : (r.begun f h w).startOp (r.flightOf f h w) = (r', g)) :
    Turns c s r (r'.addFlight g) := by
  obtain ⟨hr, hi, -, -⟩ := ht
  have hissue : r.issue cls op edge = r'.addFlight g := by rw [Run.issue_of_issuable hi hm, hs]
  exact hissue ▸ turns_of_at hc hr

/-- An operation of classes 8 to 10 that is complete as it issues does not stay in flight. -/
theorem Run.addFlight_of_done {g : Flight} (hc : 8 ≤ opClass g.word) (hw : g.work = false) : r.addFlight g = r := by
  simp [Run.addFlight, endsAtIssue, hc, hw]

/-! ## Beacon operations in turn (07 R245) -/

theorem exec_beaconAdd (p : XY) (s : State) : exec (.beaconAdd p) s = s.issueAt p 8 0 none := rfl

theorem exec_beaconWait (p : XY) (s : State) : exec (.beaconWait p) s = s.issueAt p 8 1 none := rfl

theorem exec_beaconSet (p : XY) (s : State) : exec (.beaconSet p) s = s.issueAt p 8 2 none := rfl

theorem exec_beaconWaitSatisfied (p : XY) (s : State) : exec (.beaconWaitSatisfied p) s = s.at p Run.beaconDone := rfl

/-- A beacon operation matches the row of its own code. -/
theorem rowMatches_beacon (h8 : opClass w = 8) : rowMatches 8 (opCode w) none w = true := by
  simp [rowMatches, h8]

/-- A legal beacon operation at its unit: an add and a set are complete, a wait waits. -/
theorem InTurn.startOp_beacon (ht : InTurn s p r f h w) (h8 : opClass w = 8) :
    (r.begun f h w).startOp (r.flightOf f h w) =
      let b := bitsOf (opParam w) 4 0
      let v := bitsOf (opParam w) 20 5
      let r0 := r.begun f h w
      let g := r.flightOf f h w
      if opCode w = 0 then ({ r0 with p := r0.p.beaconAdd b v }, { g with work := false })
      else if opCode w = 2 then ({ r0 with p := r0.p.beaconSet b v }, { g with work := false })
      else (r0, { g with wait := .beacon }) := by
  obtain ⟨-, -, hlegal, hgroup⟩ := ht
  have hword : (r.flightOf f h w).word = w := rfl
  have hgrp : (r.begun f h w).p.group = r.p.group := rfl
  have hsend : ¬ ((decide (r.p.group.state = 1 ∨ r.p.group.state = 2) && specKind (opDst w) == kChan && opClass w != 5) = true) := by
    simpa [and_assoc] using hgroup
  rw [Run.startOp, hword, hgrp, if_neg (by simp [hlegal]), if_neg hsend]
  simp only [h8]
  split
  · next h0 => exact (if_pos h0).symm
  · next h2 => rw [h2]; rfl
  · next h0 h2 => exact ((if_neg h0).trans (if_neg h2)).symm

theorem InTurn.turns_beaconAdd (ht : InTurn s p r f h w) (h8 : opClass w = 8) (h0 : opCode w = 0) :
    Turns (.beaconAdd p) s r { r.begun f h w with
      p := (r.begun f h w).p.beaconAdd (bitsOf (opParam w) 4 0) (bitsOf (opParam w) 20 5) } := by
  have hs := ht.startOp_beacon h8
  simp only [h0, if_true] at hs
  have hturn := ht.turns (exec_beaconAdd p s) (h0 ▸ rowMatches_beacon h8) hs
  rwa [Run.addFlight_of_done (g := { r.flightOf f h w with work := false }) h8.ge rfl] at hturn

theorem InTurn.turns_beaconSet (ht : InTurn s p r f h w) (h8 : opClass w = 8) (h2 : opCode w = 2) :
    Turns (.beaconSet p) s r { r.begun f h w with
      p := (r.begun f h w).p.beaconSet (bitsOf (opParam w) 4 0) (bitsOf (opParam w) 20 5) } := by
  have hs := ht.startOp_beacon h8
  simp only [h2, OfNat.ofNat_ne_zero, if_false, if_true] at hs
  have hturn := ht.turns (exec_beaconSet p s) (h2 ▸ rowMatches_beacon h8) hs
  rwa [Run.addFlight_of_done (g := { r.flightOf f h w with work := false }) h8.ge rfl] at hturn

theorem InTurn.turns_beaconWait (ht : InTurn s p r f h w) (h8 : opClass w = 8) (h1 : opCode w = 1) :
    Turns (.beaconWait p) s r ((r.begun f h w).addFlight { r.flightOf f h w with wait := .beacon }) := by
  have hs := ht.startOp_beacon h8
  simp only [h1, one_ne_zero, OfNat.one_ne_ofNat, if_false] at hs
  exact ht.turns (exec_beaconWait p s) (h1 ▸ rowMatches_beacon h8) hs

end

/-! ## Illegal beacon operations (07 R245, 02 R81) -/

theorem specOk_none_of_kind {dst : Bool} {k : Nat} (h : specKind k ≠ 0) : specOk dst k [0] = false := by
  simp [specOk, h]

theorem beaconReserved_ne_zero {n : Nat} (h : 2 ^ 21 ≤ n) (hn : n < 2 ^ 32) : bitsOf n 31 21 ≠ 0 := by
  rw [bitsOf, Nat.shiftRight_eq_div_pow]
  omega

theorem opIllegal_beacon {w : W128} (h8 : opClass w = 8)
    (h : 2 < opCode w ∨ specKind (opSrcA w) ≠ 0 ∨ specKind (opSrcB w) ≠ 0 ∨ specKind (opDst w) ≠ 0 ∨ 2 ^ 21 ≤ opParam w) :
    opIllegal w = true := by
  have hsync : illegalSync w = true := by
    simp only [illegalSync, h8]
    rcases h with hop | ha | hb | hd | hp
    · simp [hop]
    · simp [specOk_none_of_kind ha]
    · simp [specOk_none_of_kind hb]
    · simp [specOk_none_of_kind hd]
    · simp [beaconReserved_ne_zero hp (opParam_lt w)]
  simp [opIllegal, h8, hsync]

/-! ## A wait in flight (07 R245, R246) -/

/-- A wait in flight holds issue. -/
theorem Plot.issuable_of_beaconWait {p : Plot} {g : Flight} (hg : g ∈ p.seq.ops) (hw : g.wait = .beacon) : p.issuable = none := by
  have hholds : (p.seq.ops.any fun g => g.wait == .beacon) = true := List.any_eq_true.mpr ⟨g, hg, by simp [hw]⟩
  rw [Plot.issuable]
  split
  · rfl
  · cases p.current with
    | none => rfl
    | some f => simp [hholds]

theorem find?_beaconWait {l1 l2 : List Flight} {g : Flight} (h1 : ∀ a ∈ l1, a.wait ≠ .beacon) (hg : g.wait = .beacon) :
    ((l1 ++ g :: l2).find? fun f => f.wait == .beacon) = some g :=
  List.find?_eq_some_iff_append.mpr ⟨by simp [hg], l1, l2, rfl, fun a ha => by simpa using h1 a ha⟩

/-- A threshold read from PARAM has 16 bits: the wait's test is R246's as it stands. -/
theorem reached_param_iff (b n : Nat) :
    reached b (bitsOf n 20 5) = true ↔ (b + 65536 - bitsOf n 20 5) % 65536 < 32768 := by
  rw [reached, decide_eq_true_iff, Nat.mod_eq_of_lt (beaconValue_lt n)]

/-- The first wait in flight leaves when its beacon has reached its threshold, and else all stays. -/
theorem Run.beaconDone_of_first {r : Run} {l1 l2 : List Flight} {g : Flight} (hops : r.p.seq.ops = l1 ++ g :: l2)
    (h1 : ∀ a ∈ l1, a.wait ≠ .beacon) (hg : g.wait = .beacon) :
    r.beaconDone =
      if (r.p.beacon (bitsOf (opParam g.word) 4 0) + 65536 - bitsOf (opParam g.word) 20 5) % 65536 < 32768 then
        { r with p := { r.p with seq := { r.p.seq with ops := r.p.seq.ops.filter fun x => x.id != g.id } } }
      else r := by
  have hfind : (r.p.seq.ops.find? fun f => f.wait == .beacon) = some g := hops ▸ find?_beaconWait h1 hg
  rw [Run.beaconDone, hfind]
  simp only [reached_param_iff]

/-- Settles O33. In turn a beacon operation is `InTurn.startOp_beacon` between the sequencer's move and the flight; a wait in flight is
`Run.beaconDone` at the first flight that waits on a beacon. -/
theorem beaconOperationsAddSetAndWait : Obligations.BeaconOperationsAddSetAndWait := by
  unfold Obligations.BeaconOperationsAddSetAndWait
  refine ⟨?inTurn, fun w h8 h => opIllegal_beacon h8 h, fun p ⟨g, hg, hw⟩ => Plot.issuable_of_beaconWait hg hw, ?inFlight⟩
  case inTurn =>
    intro s p r f h w ht h8
    refine ⟨ht.turns_beaconAdd h8, fun h2 => ?_, ht.turns_beaconWait h8⟩
    exact Plot.beaconSet_param .. ▸ ht.turns_beaconSet h8 h2
  case inFlight =>
    intro s p r l1 l2 g hr hops h1 hg
    have hturn := turns_of_at (exec_beaconWaitSatisfied p s) hr
    rw [Run.beaconDone_of_first hops h1 hg] at hturn
    refine ⟨fun _ hreached => ?_, fun _ hbelow => ?_⟩
    · rwa [if_pos hreached] at hturn
    · rwa [if_neg (Nat.not_lt.mpr hbelow)] at hturn

end Sys2Proof.Machine
end

section
/-! PROOFS. The resets of the host interface (15 R489): what is due while no ring is set up is held. -/

namespace Sys2Proof.Machine

section
variable {s : State}

/-! ## Posting without a ring (15 R489, R504) -/

/-- Without a ring nothing is posted, whatever else stands. -/
theorem Hif.tryPost_of_noRing {h : Hif} (hring : h.ringSet = false) (e : Entry) : h.tryPost e = none := by
  simp [Hif.tryPost, hring]

/-- Without a ring the backlog does not move: a loss still to be told and a held entry both stay. -/
theorem State.drainBacklog_of_noRing (hring : s.hif.ringSet = false) (n : Nat) : s.drainBacklog n = s := by
  cases n with
  | zero => rfl
  | succ n =>
    rw [State.drainBacklog, Hif.tryPost_of_noRing hring]
    cases s.hif.backlog with
    | nil => simp
    | cons e rest => simp [Hif.tryPost_of_noRing hring e]

theorem State.post_of_noRing (hring : s.hif.ringSet = false) (hroom : s.hif.backlog.length < 1024) (e : Entry) :
    s.post e = { s with hif := { s.hif with backlog := s.hif.backlog ++ [e] } } := by
  rw [State.post, if_neg (Nat.not_le.mpr hroom), State.drainBacklog_of_noRing]
  exact hring

/-! ## The four resets (15 R489) -/

/-- The four causes have one meaning. -/
theorem exec_interfaceReset {c : Instr} (hc : c ∈ [Instr.perstN, .hotReset, .functionLevelReset, .pcieLinkDown]) (s : State) :
    exec c s = .next s.resetInterface := by
  simp only [List.mem_cons, List.not_mem_nil, or_false] at hc
  rcases hc with rfl | rfl | rfl | rfl <;> rfl

@[simp] theorem State.resetInterface_ringSet (s : State) : s.resetInterface.hif.ringSet = false := rfl

@[simp] theorem State.resetInterface_backlog (s : State) : s.resetInterface.hif.backlog = s.hif.backlog := rfl

/-- After a reset of the interface an entry that falls due is held, as long as fewer than 1,024 are. -/
theorem State.post_resetInterface (hroom : s.hif.backlog.length < 1024) (e : Entry) :
    s.resetInterface.post e =
      { s.resetInterface with hif := { s.resetInterface.hif with backlog := s.resetInterface.hif.backlog ++ [e] } } :=
  State.post_of_noRing s.resetInterface_ringSet (s.resetInterface_backlog ▸ hroom) e

end

/-- Settles O8. Each of the four answers `State.resetInterface`, whose fields read off as they are written; the held entry is
`State.post_resetInterface`. -/
theorem interfaceResetsKeepTheRest : Obligations.InterfaceResetsKeepTheRest := by
  unfold Obligations.InterfaceResetsKeepTheRest
  intro s c hc
  exact ⟨s.resetInterface, exec_interfaceReset hc s,
    rfl, rfl, rfl, rfl, rfl, rfl, rfl, rfl, rfl, rfl, rfl, rfl, rfl, rfl, rfl, rfl, rfl, State.post_resetInterface⟩

end Sys2Proof.Machine
end

section
/-! PROOFS. Accesses by the host and their sizes (15 R491). -/

namespace Sys2Proof.Machine

section
variable {s : State} {off len : Nat}

theorem State.byHost_of_hostUp (h : s.hostUp = true) (r : Host.Outcome State Fault Refusal) : s.byHost r = r := if_pos h

/-! ## Writes into the ledger -/

theorem exec_registerWrite (t : RegTarget) (d : List Byte) (s : State) : exec (.registerWrite t d) s = execRegisterWrite t d s := rfl

/-- A run of bytes that ends within the ledger starts within BAR0. -/
theorem RegTarget.ok_bar0_of_ledger {n : Nat} (h : off + n ≤ 0x100000) : (RegTarget.bar0 off).ok = true :=
  decide_eq_true (by omega)

theorem RegTarget.sizeOk_bar0_of_ledger {n : Nat} (h1 : 1 ≤ n) (h256 : n ≤ 256) (h : off + n ≤ 0x100000) :
    (RegTarget.bar0 off).sizeOk n = true := by
  simp [RegTarget.sizeOk, h1, h256, h]

/-- BAR0 has no processor of its own: nothing there waits for one to be at work. -/
theorem State.canWrite_bar0 (s : State) (off : Nat) : s.canWrite (.bar0 off) = true := rfl

theorem exec_ledgerWrite {d : List Byte} (h1 : 1 ≤ d.length) (h256 : d.length ≤ 256) (hin : off + d.length ≤ 0x100000)
    (hup : s.hostUp = true) :
    exec (.registerWrite (.bar0 off) d) s = .next { s with hif := { s.hif with ledger := cellsWrite s.hif.ledger off d } } := by
  rw [exec_registerWrite, execRegisterWrite]
  simp only [RegTarget.ok_bar0_of_ledger hin, RegTarget.sizeOk_bar0_of_ledger h1 h256 hin, State.canWrite_bar0, if_pos hin,
    State.byHost_of_hostUp hup, Bool.not_true, Bool.or_false, Bool.false_eq_true, if_false]

/-! ## Accesses of no allowed size -/

theorem exec_badAccess (w : Bool) (off len : Nat) (s : State) : exec (.badAccess w off len) s = execBadAccess w off len s := rfl

/-- An access that is neither in the ledger's sizes, nor in the paged window, nor a word in its place raises BAD_ACCESS; a read answers ones. -/
theorem exec_badAccess_of_bad {w : Bool} (hup : s.hostUp = true) (hledger : ¬ (off + len ≤ 0x100000 ∧ (w = true → 1 ≤ len ∧ len ≤ 256)))
    (hwindow : ¬ (0x1000000 ≤ off ∧ off < 0x1400000)) (hword : ¬ ((len = 4 ∨ len = 8) ∧ off % len = 0)) :
    exec (.badAccess w off len) s =
      .next { s with hif := { s.hif with badAccess := true }, out := if w then s.out else onesBytes len } := by
  have hl : (decide (off + len ≤ 0x100000) && (!w || decide (1 ≤ len ∧ len ≤ 256))) = false := by
    cases w <;> simpa using hledger
  have hg : ((len == 4 || len == 8) && off % len == 0) = false := by simpa using hword
  rw [exec_badAccess, execBadAccess]
  simp only [hup, hl, hg, decide_eq_false hwindow, Bool.not_true, Bool.or_false, Bool.false_eq_true, if_false]
  cases w <;> rfl

end

/-- Settles O11. A ledger write is `exec_ledgerWrite` with `cellGet_cellsWrite`; an access of no allowed size is `exec_badAccess_of_bad`. -/
theorem hostAccessesFollowTheirSizes : Obligations.HostAccessesFollowTheirSizes := by
  unfold Obligations.HostAccessesFollowTheirSizes
  refine ⟨?ledger, ?bad⟩
  case ledger =>
    intro s off d h1 h256 hin hup
    exact ⟨_, exec_ledgerWrite h1 h256 hin hup, rfl, cellGet_cellsWrite s.hif.ledger off d⟩
  case bad =>
    intro s w off len hup hledger hwindow hword
    exact ⟨_, exec_badAccess_of_bad hup hledger hwindow hword, rfl, fun hread => by rw [hread]; rfl, fun hwrite => by rw [hwrite]; rfl, rfl, rfl⟩

end Sys2Proof.Machine
end
